-- ==== Sys2Proof/Word.lean ====
section
/-! DEFINITION. The word types of the block and of the event stream (00_scope.md R7: `u8`, `u16`, `s16`). -/

namespace Sys2Proof

/-- One byte of an event record or of a command word; unsigned (R7, R65). -/
abbrev Byte := BitVec 8

/-- A 16-bit register: `u16` for the counters, two's-complement `s16` for levels and samples (R7, R11). -/
abbrev Word := BitVec 16

end Sys2Proof
end

