-- ==== Sys2Proof/Config.lean ====
section
/-! DEFINITION. What a build fixes (00_scope.md R6) and the values the spec leaves open. `Config` is plain data
that no step changes; the `opaque` constants have no body, so nothing can be proved of their values. -/

namespace Sys2Proof

/-- Which numeric functions `ampOf`, `freqOf`, `halfPeriodOf`, `delayOf` a build uses (R113, D11, D29). -/
inductive Numerics where
  /-- The spec's reference definitions: exact real arithmetic, then `round`, ties away from zero. -/
  | reference
  /-- Other functions of the same operands (a binary32 evaluation, say): unknown ones. -/
  | implementation
  deriving DecidableEq, Repr

/-- The build-time constants of R6. -/
structure Config where
  /-- `NUM_VOICES`. -/
  numVoices : Nat
  /-- `SAMPLE_RATE`, samples per second. -/
  sampleRate : Nat
  /-- `A_MAX`, the source's `maxVoiceAmplitude`. -/
  aMax : Nat
  /-- `TPQN`, ticks per quarter note (host only). -/
  tpqn : Nat
  /-- `DEFAULT_BPM` (host only). -/
  defaultBpm : Nat
  numerics : Numerics
  deriving DecidableEq, Repr

/-- The reference configuration of R6. DESIGN CHOICE (log 2): the one `State.reset` starts with. -/
def Config.reference : Config :=
  { numVoices := 8, sampleRate := 44100, aMax := 32767, tpqn := 96, defaultBpm := 120,
    numerics := .reference }

/-- Free value: the transport's `pcm_ready` in the n-th producer step for which no input is queued
(R141: "a free input of each step"; log 1). -/
opaque Config.freePcmReady : Nat → Bool

/-- Free value: what the u8 `noteId` register holds after a `noteOn` call with a note number outside 0..255, given
the notes then sounding in rising order, so that no slot index enters it (R24 item 3); R14 item 4 leaves it a byte that
none of them is (log 15). -/
opaque Config.noteIdNotFitting : Int → List Byte → Byte

/-- Free value: what the u16 `halfPeriodSamples` register holds when `halfPeriodOf` of a call's note exceeds
65535 at this sample rate; R113 (b) leaves it a value from 1 up (log 15). -/
opaque Config.halfPeriodNotFitting : Nat → Int → Word

/-- What an implementation's `ampOf` is built from, a function of `A_MAX` and the velocity (log 3). -/
opaque Config.implAmpOf : Nat → Nat → Nat

/-- An implementation's rounded quotient for `halfPeriodOf`, a function of the rate and the note (log 3). -/
opaque Config.implHalfPeriodOf : Nat → Int → Word

/-- Whether an implementation's `freqOf` underflows to zero for a (negative) note (R105, U15, log 3). -/
opaque Config.implFrequencyUnderflows : Int → Bool

/-- Whether an implementation's `delayOf` rounds an exact half up, a function of the tick count and the tick length
(R113 (e), log 30). -/
opaque Config.implHalfRoundsUp : Nat → Rat → Bool

end Sys2Proof
end

