-- ==== Sys2Proof/Syntax.lean ====
section
/-! DEFINITION. The operations of the system (30_encoding.md R70, one constructor per row of the opcode table) and
the forms that select them (R60, R61, R68, R69, R70). -/

namespace Sys2Proof

/-- One constructor per row of spec/opcode_table.json. The note and velocity operands of NOTE_ON and NOTE_OFF are
integers: R65 and R100 state the operations for DOC0's calls too; through a command word they are 0..255. -/
inductive Instr where
  /-- NOTE_OFF(noteId), R109. -/
  | noteOff (noteId : Int)
  /-- A note-on word with velocity 0, R62: NOTE_OFF(noteId). -/
  | noteOnV0 (noteId : Byte)
  /-- NOTE_ON(noteId, velocity), R101. -/
  | noteOn (noteId : Int) (velocity : Int)
  /-- RENDER, R120. -/
  | render
  /-- EMIT, R143. -/
  | emit
  /-- HOLD, R144. -/
  | hold
  /-- RESET, R230. -/
  | reset
  /-- A note-off event record, R60, R168. -/
  | evOff (deltaTicks : Word) (noteId : Byte)
  /-- A note-on event record with velocity 0, R62, R168. -/
  | evOnV0 (deltaTicks : Word) (noteId : Byte)
  /-- A note-on event record, R60, R168. -/
  | evOn (deltaTicks : Word) (noteId : Byte) (velocity : Byte)
  /-- LOAD_SONG(descriptor), R161. `none` is the null data pointer; `bpm` is a binary32 value by its bits. -/
  | loadSong (dataPointer : Option Nat) (eventCount : Word) (bpm : BitVec 32)
  /-- START(now), R164. -/
  | start (now : Nat)
  /-- STOP, R166. -/
  | stop
  /-- UPDATE(now), R168. -/
  | update (now : Nat)
  deriving DecidableEq, Repr

/-- What a command word stands for (R62). -/
inductive Command where
  | noteOff (noteId : Byte)
  | noteOnV0 (noteId : Byte)
  | noteOn (noteId : Byte) (velocity : Byte)
  deriving DecidableEq, Repr

/-- The operands of a host call; a call reads only the ones it has (R161, R164, R168). -/
structure CallArgs where
  dataPointer : Option Nat
  eventCount : Word
  bpm : BitVec 32
  now : Nat
  deriving DecidableEq, Repr

/-- What selects an operation (R70), in the five formats of the opcode table and DOC0's two calls (R61). -/
inductive Encoded where
  /-- Format CMD, R61. -/
  | command (word : BitVec 32)
  /-- The call `noteOn(noteId:int, velocity:int)`, R61, R100. -/
  | noteOnCall (noteId : Int) (velocity : Int)
  /-- The call `noteOff(noteId:int)`, R61, R100. -/
  | noteOffCall (noteId : Int)
  /-- Format HS: `pcm_valid pcm_ready`, R68. -/
  | handshake (pattern : BitVec 2)
  /-- Format RST: the level of `rst`, R69. -/
  | resetLine (level : BitVec 1)
  /-- Format EV as one 48-bit number, byte 0 most significant, R60. -/
  | event (record : BitVec 48)
  /-- Format CALL: the label `host_op` and the call's operands, R70, D38. -/
  | hostCall (hostOp : BitVec 2) (args : CallArgs)
  deriving DecidableEq, Repr

/-- Why a form selects no operation. -/
inductive DecodeError where
  /-- A command word or an event record whose `type` is 2..255 (R64, U1): the spec tells a model to refuse the
  trace. Safe: nothing rests on what hardware does with it. -/
  | reservedType (type : Byte)
  /-- Format RST with `rst = 0`: nothing is selected (R69). Safe. -/
  | resetLineLow
  deriving DecidableEq, Repr

end Sys2Proof
end

