-- ==== Sys2Proof/Machine/State.lean ====
section
/-! DEFINITION. The machine's state as plain data (10_state.md), its stops, and the state after reset (R27). -/

namespace Sys2Proof.Machine

/-- The `frequency` field (R11, R16: a representation is open; D12 allows a real number): an exact real number in
Hz, named by the note it was derived from (R105). -/
inductive Frequency where
  /-- 0 Hz, "silent/invalid" (R11). -/
  | silent
  /-- `440 × 2^((noteId − 69) / 12)` Hz (R105). -/
  | ofNote (noteId : Int)
  deriving DecidableEq, Repr

/-- One voice slot (R11). -/
structure Voice where
  active : Bool
  noteId : Byte
  frequency : Frequency
  /-- `s16`. -/
  targetAmplitude : Word
  /-- `s16`. -/
  currentLevel : Word
  /-- `u16`. -/
  halfPeriodSamples : Word
  /-- `u16`. -/
  samplesUntilFlip : Word
  deriving DecidableEq, Repr

/-- A slot after RESET (R27, R230). -/
def Voice.reset : Voice :=
  { active := false, noteId := 0, frequency := .silent, targetAmplitude := 0, currentLevel := 0,
    halfPeriodSamples := 0, samplesUntilFlip := 0 }

/-- The kinds of R201. -/
inductive Diagnostic where
  | voicePoolExhausted
  | invalidNoteParameters
  | invalidDescriptor
  | mutexAcquisitionFailure
  | reservedCommand
  deriving DecidableEq, Repr

/-- One emitted frame (R63). -/
structure Frame where
  left : Word
  right : Word
  deriving DecidableEq, Repr

/-- What a host call returned (R161, R168). -/
inductive HostReturn where
  /-- LOAD_SONG's success or failure. -/
  | loaded (success : Bool)
  /-- UPDATE's `still playing`. -/
  | stillPlaying (value : Bool)
  deriving DecidableEq, Repr

/-- The launch premise `guard_ok` (R205, R232). -/
inductive Launch where
  /-- The guard exists: every rule applies. -/
  | guardOk
  /-- The guard could not be created and code 4 has not been reported yet. -/
  | guardFailed
  /-- Code 4 has been reported: set-up is aborted and the block is stuck in reset. -/
  | aborted
  deriving DecidableEq, Repr

/-- One entry of the trace still to be taken (R7): which agent steps, with the inputs of that step (R28). -/
inductive Input where
  /-- The command agent accepts a word (R66). -/
  | command (word : BitVec 32)
  /-- The command agent accepts DOC0's call `noteOn` (R61). -/
  | noteOnCall (noteId : Int) (velocity : Int)
  /-- The command agent accepts DOC0's call `noteOff` (R61). -/
  | noteOffCall (noteId : Int)
  /-- The producer steps, the transport's `pcm_ready` being as given (R141). -/
  | producer (pcmReady : Bool)
  /-- The surrounding program makes a host call (R160, R70). -/
  | hostCall (hostOp : BitVec 2) (args : CallArgs)
  deriving DecidableEq, Repr

/-- The event stream's bytes (R23, R51): addresses strictly rising, an unlisted address has no value (log 10). -/
abbrev Memory := List Host.Cell

/-- Why the machine stops with a fault. -/
inductive Fault where
  /-- Raised by START, UPDATE and the event records when a byte they need of the given record has no value: the
  stream is shorter than `eventCount` says, or `dataPointer` is not valid (R51, U12, U17). Safe. -/
  | eventStreamUnreadable (record : Nat)
  deriving DecidableEq, Repr

/-- Why a run is refused. -/
inductive Refusal where
  /-- Raised by an arm of `exec` for an instruction without a meaning yet; no arm does. Safe. -/
  | notModelled (mnemonic : String)
  /-- Raised by `step` and by UPDATE for a form that selects no operation: a reserved `type` (R64, U1). Safe. -/
  | undecodable (error : DecodeError)
  /-- Raised by LOAD_SONG when it would use a `bpm` that is NaN or infinite (R161, U9). Safe. -/
  | bpmNotFinite
  /-- Raised by START and UPDATE when `now` is less than at an earlier call (R167, U8). Safe. -/
  | timeRunsBackwards
  /-- Raised by `step` in a configuration outside the constraints of R6 (U13). Safe. -/
  | configurationOutOfRange
  /-- Raised by RENDER, EMIT and HOLD when `pcm_valid` is not the one that selects them (R68, R120, R143, R144):
  no step of the machine gets there. Safe. -/
  | producerStepNotEnabled
  deriving DecidableEq, Repr

/-- The machine. -/
structure State where
  /-- The build-time constants (R6, R20); no step writes them (log 2). -/
  cfg : Config
  /-- The launch premise `guard_ok` (R205). -/
  launch : Launch
  /-- The voice table `v[0] .. v[N−1]` (R10). -/
  voices : List Voice
  /-- `pcm_sample`, `s16` (R17). -/
  pcmSample : Word
  /-- `pcm_valid` (R17). -/
  pcmValid : Bool
  /-- Host: a valid song is loaded (R25). -/
  songValid : Bool
  /-- Host (R25). -/
  playing : Bool
  /-- Host: the next event to process (R25). -/
  eventIndex : Word
  /-- Host: timestamp in ms (R25, R167). -/
  nextEventDueAt : Nat
  /-- Host: ms per tick, the exact value (R25, R162). -/
  millisPerTick : Rat
  /-- Host: the address of record 0 (R25). -/
  dataPointer : Nat
  /-- Host: the number of records (R25). -/
  eventCount : Word
  /-- The model's own: the `now` of the latest START or UPDATE (R167, log 9). -/
  now : Nat
  /-- The event stream, read-only (R51). -/
  stream : Memory
  /-- Input: the levels of `rst` at the coming steps; past the end it is 0 (R69, log 28). -/
  rstLine : List Bool
  /-- Input: the trace still to be taken (R28, log 1). -/
  inputs : List Input
  /-- The model's own: how many free `pcm_ready` values have been taken (log 1). -/
  readyCount : Nat
  /-- Output: the emitted frames, oldest first (R28, R143). -/
  frames : List Frame
  /-- Output: the diagnostics, oldest first (R28, R67). -/
  diags : List Diagnostic
  /-- Output: what host calls returned, oldest first (R161, R168). -/
  returns : List HostReturn
  deriving DecidableEq, Repr

/-- The machine right after reset (R27), in the reference configuration (log 2), launched with the guard (log 11).
The host registers the spec leaves "unspecified" are 0: DESIGN CHOICE, log 13. -/
def State.reset : State :=
  { cfg := Config.reference
    launch := .guardOk
    voices := List.replicate 8 Voice.reset
    pcmSample := 0
    pcmValid := false
    songValid := false
    playing := false
    eventIndex := 0
    nextEventDueAt := 0
    millisPerTick := 0
    dataPointer := 0
    eventCount := 0
    now := 0
    stream := []
    rstLine := []
    inputs := []
    readyCount := 0
    frames := []
    diags := []
    returns := [] }

end Sys2Proof.Machine
end

