-- ==== Sys2Proof/Machine/Numerics.lean ====
section
/-! DEFINITION. The numeric functions (40_voice_commands.md R104 to R106, 43_host_sequencer.md R162, R163), exact, in
integer arithmetic, and the constraints on a configuration (R6). -/

namespace Sys2Proof.Machine

/-- `round(num / den)` for `den > 0`: nearest, ties away from zero, `floor(x + 1/2)` for `x ≥ 0` (R7). -/
def roundDiv (num den : Nat) : Nat := (2 * num + den) / (2 * den)

/-- `round(x)` for `x ≥ 0` (R7). -/
def roundRat (x : Rat) : Nat := roundDiv x.num.toNat x.den

/-- `clamp(x, lo, hi)` (R7). -/
def clamp (x lo hi : Int) : Int := if x < lo then lo else if x > hi then hi else x

/-- `sdiv_trunc(a, b)`, `b > 0`: the quotient rounded toward zero (R7). -/
def sdivTrunc (a : Int) (b : Nat) : Int := if 0 ≤ a then a / b else -(-a / b)

/-- The largest `k' = k + (a number of at most that many bits)` with `p k'`, for a `p` that holds up to some bound and
not beyond. -/
def greatestBelow (p : Nat → Bool) : (bits : Nat) → (k : Nat) → Nat
  | 0, k => k
  | bits + 1, k => if p (k + 2 ^ bits) then greatestBelow p bits (k + 2 ^ bits) else greatestBelow p bits k

/-- `k − 1/2 ≤ SAMPLE_RATE / (2 f)` for `k ≥ 1` and `f = 440 × 2^((n − 69) / 12)`, that is `(2k − 1) f ≤ SAMPLE_RATE`,
both sides to the 12th power so that only integers stand in it (R105, R106). -/
def halfPeriodAtLeast (sampleRate : Nat) (n : Int) (k : Nat) : Bool :=
  ((2 * k - 1) * 440) ^ 12 * 2 ^ (n - 69).toNat ≤ sampleRate ^ 12 * 2 ^ (69 - n).toNat

/-- `max(1, round(SAMPLE_RATE / (2 f)))` where that is at most 65535 (R106): the greatest `k` that rounding reaches. -/
def exactHalfPeriod (sampleRate : Nat) (n : Int) : Nat :=
  max 1 (greatestBelow (halfPeriodAtLeast sampleRate n) 16 0)

/-- "Floored at 1" (R106). -/
def atLeastOne (h : Word) : Word := if h = 0 then 1 else h

/-- The reference `halfPeriodOf(noteId)` as the u16 register holds it (R106). A quotient above 65535 does not fit: no
note from 0 up has one in a configuration of R6, a call with a negative note may, and the register then holds a free
value in 1..65535 (R113 (b), log 15). -/
def referenceHalfPeriod (sampleRate : Nat) (noteId : Int) : Word :=
  if halfPeriodAtLeast sampleRate noteId 65536 then atLeastOne (Config.halfPeriodNotFitting sampleRate noteId)
  else BitVec.ofNat 16 (exactHalfPeriod sampleRate noteId)

/-- `halfPeriodOf(noteId)`, in 1..65535, the one use of SAMPLE_RATE (R6, R147). Another function gives the same integers
at the reference rate for every note from 0 up (R106, R111 item 8, R112, R113, R241). -/
def halfPeriodOf (cfg : Config) (noteId : Int) : Word :=
  match cfg.numerics with
  | .reference => referenceHalfPeriod cfg.sampleRate noteId
  | .implementation =>
    if cfg.sampleRate = Config.reference.sampleRate && 0 ≤ noteId then referenceHalfPeriod cfg.sampleRate noteId
    else atLeastOne (Config.implHalfPeriodOf cfg.sampleRate noteId)

/-- `round(vel × A_MAX / 127)` (R104). -/
def referenceAmp (aMax vel : Nat) : Nat := roundDiv (vel * aMax) 127

/-- The greatest of `f 0 .. f n`. -/
def runningMax (f : Nat → Nat) : Nat → Nat
  | 0 => f 0
  | n + 1 => max (runningMax f n) (f (n + 1))

/-- `ampOf(vel)`, in 0..A_MAX. Another function has the properties of R104 too (0 exactly where the exact quotient is
below 1/2, A_MAX at 127, never falling; R203 rests on the first) and gives the same integers at the reference A_MAX
(R112, R113); it depends on A_MAX and no other parameter (R6, R147; log 3). -/
def ampOf (cfg : Config) (vel : Nat) : Nat :=
  match cfg.numerics with
  | .reference => referenceAmp cfg.aMax vel
  | .implementation =>
    if referenceAmp cfg.aMax vel = 0 then 0
    else if vel = 127 || cfg.aMax = Config.reference.aMax then referenceAmp cfg.aMax vel
    else min (max 1 (runningMax (Config.implAmpOf cfg.aMax) vel)) cfg.aMax

/-- `freqOf(noteId)`: over the reals it is positive for every note; an implementation's power may underflow to zero for
a negative note (R105, U15, log 3). -/
def freqOf (cfg : Config) (noteId : Int) : Frequency :=
  match cfg.numerics with
  | .reference => .ofNote noteId
  | .implementation =>
    if noteId < 0 && Config.implFrequencyUnderflows noteId then .silent else .ofNote noteId

/-- `f ≤ 0` (R107). -/
def Frequency.isNonPositive : Frequency → Bool
  | .silent => true
  | .ofNote _ => false

/-- `round(x)` but for the exact halves, which go up or down as given. -/
def roundHalf (halfUp : Bool) (x : Rat) : Nat := if x.den = 2 && !halfUp then roundRat x - 1 else roundRat x

/-- `delayOf(deltaTicks) = round(deltaTicks × millisPerTick)`, in `0..round(65535 × millisPerTick)` (R163, R113).
Another function differs at exact halves only (R113 (e), log 30). -/
def delayOf (cfg : Config) (millisPerTick : Rat) (deltaTicks : Word) : Nat :=
  match cfg.numerics with
  | .reference => roundRat (deltaTicks.toNat * millisPerTick)
  | .implementation =>
    roundHalf (Config.implHalfRoundsUp deltaTicks.toNat millisPerTick) (deltaTicks.toNat * millisPerTick)

/-- `(60 000 000 / bpm) / 1000 / TPQN` (R162). -/
def millisPerTickOf (cfg : Config) (bpm : Rat) : Rat := 60000000 / bpm / 1000 / cfg.tpqn

/-- The value of a binary32 number by its bits, `none` for a NaN or an infinity. PRESUMED: the IEEE 754 interchange
layout, which the word `float32` stands for (log 6). -/
def binary32Value (bits : BitVec 32) : Option Rat :=
  let exponent := (bits.extractLsb' 23 8).toNat
  let fraction := (bits.extractLsb' 0 23).toNat
  if exponent = 255 then none
  else
    let significand : Nat := if exponent = 0 then fraction else fraction + 2 ^ 23
    let power := max exponent 1
    let magnitude : Rat :=
      if 150 ≤ power then ((significand * 2 ^ (power - 150) : Nat) : Rat)
      else mkRat significand (2 ^ (150 - power))
    some (if bits.getLsbD 31 then -magnitude else magnitude)

/-- The tempo LOAD_SONG uses: `DEFAULT_BPM` when the descriptor's is 0 or negative (R161). -/
def tempoOf (cfg : Config) (bpm : Rat) : Rat := if bpm ≤ 0 then cfg.defaultBpm else bpm

/-- The constraints of R6 (D3, D4, D5; log 17). DESIGN CHOICE (log 31): `halfPeriodOf(0) ≤ 65535` is judged by the exact
`halfPeriodOf` in every build, one with other numeric functions included. -/
def configInRange (cfg : Config) : Bool :=
  1 ≤ cfg.numVoices && cfg.numVoices ≤ 255 && 1 ≤ cfg.aMax && cfg.aMax ≤ 32767 && 1 ≤ cfg.sampleRate &&
    !halfPeriodAtLeast cfg.sampleRate 0 65536 && 1 ≤ cfg.tpqn && 1 ≤ cfg.defaultBpm

end Sys2Proof.Machine
end

