-- ==== Sys2Proof/Machine/Ops.lean ====
section
/-! DEFINITION. The named operations on the state: the event stream, diagnostics, outputs, host registers, ports. -/

namespace Sys2Proof.Machine

/-! ### The event stream (20_memory.md R51) -/

/-- `MemRead(addr, 1)`; `none` where the stream has no byte (log 10). -/
def readByte : Memory → Nat → Option Byte
  | [], _ => none
  | (a, b) :: rest, addr => if a = addr then some b else readByte rest addr

/-- `MemWrite(addr, 1, b)` (R7). No rule uses it; it places a stream from outside the machine (log 1). -/
def writeByte : Memory → Nat → Byte → Memory
  | [], addr, b => [(addr, b)]
  | (a, c) :: rest, addr, b =>
    if addr < a then (addr, b) :: (a, c) :: rest
    else if addr = a then (a, b) :: rest
    else (a, c) :: writeByte rest addr b

/-- Consecutive bytes from an address up. -/
def writeBytes : Memory → Nat → List Byte → Memory
  | m, _, [] => m
  | m, addr, b :: rest => writeBytes (writeByte m addr b) (addr + 1) rest

/-- Every listed address is above `bound`, and they rise strictly. -/
def Memory.risesFrom : Nat → Memory → Bool
  | _, [] => true
  | bound, (a, _) :: rest => decide (bound ≤ a) && Memory.risesFrom (a + 1) rest

/-- The canonical form: addresses strictly rising. (An unlisted address has no value, so no entry can repeat it.) -/
def Memory.wf (m : Memory) : Bool := Memory.risesFrom 0 m

/-! ### Diagnostics: this hardware's only exception mechanism (60_exceptions.md R200, R209) -/

/-- The code on `diag_code[2:0]` (R67, R201). -/
def Diagnostic.code : Diagnostic → BitVec 3
  | .voicePoolExhausted => 1
  | .invalidNoteParameters => 2
  | .invalidDescriptor => 3
  | .mutexAcquisitionFailure => 4
  | .reservedCommand => 5

/-- `report <Kind>`: one diagnostic comes out; nothing is saved, no mode changes, control goes nowhere and there is
nothing to return from (R7, R200, R209, R210). -/
def report (d : Diagnostic) (s : State) : State := { s with diags := s.diags ++ [d] }

/-! ### The voice table and the PCM register -/

/-- The voice table written in one atomic step (R44). -/
def setVoices (vs : List Voice) (s : State) : State := { s with voices := vs }

/-- The mixed sample goes into the PCM register, which is then full (R17, R120). -/
def fillPcm (sample : Word) (s : State) : State := { s with pcmSample := sample, pcmValid := true }

/-- One frame, left = right = `pcm_sample`, goes out and the register is empty (R143). -/
def outputFrame (s : State) : State :=
  { s with frames := s.frames ++ [{ left := s.pcmSample, right := s.pcmSample }], pcmValid := false }

/-! ### The host's registers -/

/-- The `now` of a START or UPDATE, sampled once per call (R167). -/
def sampleTime (now : Nat) (s : State) : State := { s with now := now }

/-- A host call returns a value (R161, R168). -/
def returnValue (r : HostReturn) (s : State) : State := { s with returns := s.returns ++ [r] }

/-- `playing <- b`. -/
def setPlaying (b : Bool) (s : State) : State := { s with playing := b }

/-- `nextEventDueAt <- t`. -/
def setDue (t : Nat) (s : State) : State := { s with nextEventDueAt := t }

/-- `eventIndex <- eventIndex + 1` (R168 (5)). -/
def advanceCursor (s : State) : State := { s with eventIndex := s.eventIndex + 1 }

/-- "Clearing current song" (R161, D27). -/
def clearSong (s : State) : State := { s with songValid := false, playing := false }

/-- What a successful LOAD_SONG writes (R161). -/
def installSong (dataPointer : Nat) (eventCount : Word) (millisPerTick : Rat) (s : State) : State :=
  { s with dataPointer := dataPointer, eventCount := eventCount, millisPerTick := millisPerTick,
           eventIndex := 0, songValid := true, playing := false }

/-! ### Ports (30_encoding.md R66, R68): views of the state -/

/-- `pcm_left`. -/
def pcmLeft (s : State) : Word := s.pcmSample

/-- `pcm_right`. -/
def pcmRight (s : State) : Word := s.pcmSample

/-- A frame as one 32-bit value, `right ‖ left` (R63). -/
def frameWord (f : Frame) : BitVec 32 := f.right ++ f.left

/-- `rst` at the coming step (R69). -/
def rstLevel (s : State) : Bool := s.rstLine.headD false

/-- `cmd_ready`: a command can be accepted at the coming step (R66, R230, R232). -/
def cmdReady (s : State) : Bool := decide (s.launch = .guardOk) && !rstLevel s

end Sys2Proof.Machine
end

