-- ==== Sys2Proof/Machine/Control.lean ====
section
/-! DEFINITION. RESET (70_reset_and_hazards.md R230). -/

namespace Sys2Proof.Machine

/-- The block's state as R230 leaves it; the host agent, the inputs and the outputs are not named there (log 12). -/
def resetBlock (s : State) : State :=
  { s with voices := List.replicate s.cfg.numVoices Voice.reset, pcmValid := false, pcmSample := 0 }

/-- RESET. -/
def execReset (s : State) : Host.Outcome State Fault Refusal := .next (resetBlock s)

end Sys2Proof.Machine
end

