-- ==== Sys2Proof/WellFormed.lean ====
section
/-! DEFINITION. The one check the opcode table puts on operands: an EV_ON record has a velocity other than 0 (with
velocity 0 it is EV_ON_V0, R62). The table's same constraint on NOTE_ON is about its command word; the call
`noteOn(n, 0)` is an instruction (R111 item 4), which `encode` writes as a call. -/

namespace Sys2Proof

/-- The operands are ones the instruction can have. -/
def Instr.wellFormed : Instr → Bool
  | .noteOff _ => true
  | .noteOnV0 _ => true
  | .noteOn _ _ => true
  | .render => true
  | .emit => true
  | .hold => true
  | .reset => true
  | .evOff _ _ => true
  | .evOnV0 _ _ => true
  | .evOn _ _ velocity => velocity != 0
  | .loadSong _ _ _ => true
  | .start _ => true
  | .stop => true
  | .update _ => true

end Sys2Proof
end

