-- ==== Sys2Proof/Decode.lean ====
section
/-! DEFINITION. The decoder (30_encoding.md R60 to R70), total and rejecting by name, then the encoder. -/

namespace Sys2Proof

/-! ### Fields -/

/-- `w[31:24]` of a command word (R61). -/
def commandType (w : BitVec 32) : Byte := w.extractLsb' 24 8

/-- `w[23:16]` of a command word (R61). -/
def commandNote (w : BitVec 32) : Byte := w.extractLsb' 16 8

/-- `w[15:8]` of a command word (R61). -/
def commandVelocity (w : BitVec 32) : Byte := w.extractLsb' 8 8

/-- `[47:32]` of an event record (R60). -/
def recordDelta (r : BitVec 48) : Word := r.extractLsb' 32 16

/-- Bytes 2 to 5 of an event record: the command word it carries (R60, R61). -/
def recordCommand (r : BitVec 48) : BitVec 32 := r.extractLsb' 0 32

/-- A command word from its four bytes, byte 2 of the record first (R61). -/
def commandWord (type noteId velocity reserved : Byte) : BitVec 32 :=
  type ++ noteId ++ velocity ++ reserved

/-- `deltaTicks` from its two bytes, the lower-addressed one more significant (R41). -/
def bigEndian (b0 b1 : Byte) : Word := b0 ++ b1

/-- An event record as one 48-bit number from its six bytes, byte 0 most significant (R60). -/
def recordOfBytes (b0 b1 type noteId velocity reserved : Byte) : BitVec 48 :=
  bigEndian b0 b1 ++ commandWord type noteId velocity reserved

/-- The six bytes of a record, lowest address first (R60). -/
def bytesOfRecord (r : BitVec 48) : List Byte :=
  [r.extractLsb' 40 8, r.extractLsb' 32 8, r.extractLsb' 24 8, r.extractLsb' 16 8, r.extractLsb' 8 8,
    r.extractLsb' 0 8]

/-! ### Decoding -/

/-- R62: `type`, then `velocity`; any other `type` is reserved (R64). The reserved byte is not read. -/
def commandOf (w : BitVec 32) : Except DecodeError Command :=
  if commandType w = 1 then
    if commandVelocity w = 0 then .ok (.noteOnV0 (commandNote w))
    else .ok (.noteOn (commandNote w) (commandVelocity w))
  else if commandType w = 0 then .ok (.noteOff (commandNote w))
  else .error (.reservedType (commandType w))

/-- The block's operation for a command: its bytes zero-extended to the integers the operations take (R65). -/
def Command.toInstr : Command → Instr
  | .noteOff n => .noteOff n.toNat
  | .noteOnV0 n => .noteOnV0 n
  | .noteOn n v => .noteOn n.toNat v.toNat

/-- The event of a record whose bytes 2 to 5 are that command (R70). -/
def Command.toEvent (deltaTicks : Word) : Command → Instr
  | .noteOff n => .evOff deltaTicks n
  | .noteOnV0 n => .evOnV0 deltaTicks n
  | .noteOn n v => .evOn deltaTicks n v

/-- The producer's step for `pcm_valid pcm_ready` (R68, R141). -/
def handshakeOf (pattern : BitVec 2) : Instr :=
  if pattern.getLsbD 1 then (if pattern.getLsbD 0 then .emit else .hold) else .render

/-- The host call a label names (R70, D38). -/
def callOf (hostOp : BitVec 2) (args : CallArgs) : Instr :=
  if hostOp = 0 then .loadSong args.dataPointer args.eventCount args.bpm
  else if hostOp = 1 then .start args.now
  else if hostOp = 2 then .stop
  else .update args.now

/-- The operation a form selects (R70). -/
def decode : Encoded → Except DecodeError Instr
  | .command w => (commandOf w).map Command.toInstr
  | .noteOnCall n v => .ok (.noteOn n v)
  | .noteOffCall n => .ok (.noteOff n)
  | .handshake p => .ok (handshakeOf p)
  | .resetLine level => if level = 1 then .ok .reset else .error .resetLineLow
  | .event r => (commandOf (recordCommand r)).map (Command.toEvent (recordDelta r))
  | .hostCall op args => .ok (callOf op args)

/-! ### Encoding -/

/-- The arguments of a call that uses none of them. -/
def noArgs : CallArgs := { dataPointer := none, eventCount := 0, bpm := 0, now := 0 }

/-- Whether an integer operand fits the command word's unsigned byte (R65). -/
def fitsByte (x : Int) : Bool := 0 ≤ x && x ≤ 255

/-- The form of an instruction: the command word where the operands fit one (R61; velocity 0 there would be
NOTE_ON_V0), else DOC0's call. An encoder writes 0 in the ignored bytes (R64, R73). -/
def encode : Instr → Encoded
  | .noteOff n =>
    if fitsByte n then .command (commandWord 0 (BitVec.ofInt 8 n) 0 0) else .noteOffCall n
  | .noteOnV0 n => .command (commandWord 1 n 0 0)
  | .noteOn n v =>
    if fitsByte n && fitsByte v && v != 0 then
      .command (commandWord 1 (BitVec.ofInt 8 n) (BitVec.ofInt 8 v) 0)
    else .noteOnCall n v
  | .render => .handshake 0b00
  | .emit => .handshake 0b11
  | .hold => .handshake 0b10
  | .reset => .resetLine 1
  | .evOff d n => .event (d ++ commandWord 0 n 0 0)
  | .evOnV0 d n => .event (d ++ commandWord 1 n 0 0)
  | .evOn d n v => .event (d ++ commandWord 1 n v 0)
  | .loadSong p c b => .hostCall 0 { noArgs with dataPointer := p, eventCount := c, bpm := b }
  | .start t => .hostCall 1 { noArgs with now := t }
  | .stop => .hostCall 2 noArgs
  | .update t => .hostCall 3 { noArgs with now := t }

/-! ### Assembly (R73) -/

/-- `{delta=D,on|off,n,v}` assembled: bytes `D[15:8], D[7:0], (on ? 1 : 0), n, v, 0x00`. -/
def assembleEvent (delta : Word) (on : Bool) (noteId velocity : Byte) : List Byte :=
  [delta.extractLsb' 8 8, delta.extractLsb' 0 8, if on then 1 else 0, noteId, velocity, 0]

/-- `ON n,v` assembled. -/
def assembleOn (noteId velocity : Byte) : BitVec 32 := commandWord 1 noteId velocity 0

/-- `OFF n` assembled. -/
def assembleOff (noteId : Byte) : BitVec 32 := commandWord 0 noteId 0 0

/-- `NOP D` assembled, for a note that is not sounding: a note-off record (R73 (b)). -/
def assembleNop (delta : Word) (silentNote : Byte) : List Byte := assembleEvent delta false silentNote 0

/-! ### Words of the opcode table -/

/-- The record stored as six bytes, byte 0 first, and read back (R60). -/
def storedRecord (r : BitVec 48) : BitVec 48 :=
  match bytesOfRecord r with
  | [b0, b1, type, noteId, velocity, reserved] => recordOfBytes b0 b1 type noteId velocity reserved
  | _ => r

/-- The form that a word of the opcode table stands for. The rows narrower than a byte (HS, RST, CALL) share
their words once each is widened to 8 bits; a byte is read as the block's own line pattern, with 1 as `rst = 1`,
which overrides the others (R69); `host_op` is a label nothing in hardware corresponds to (R70). DESIGN CHOICE,
log 16. -/
def tableEncoding (nbits w : Nat) : Option Encoded :=
  if nbits = 32 then some (.command (BitVec.ofNat 32 w))
  else if nbits = 48 then some (.event (storedRecord (BitVec.ofNat 48 w)))
  else if nbits = 8 then
    if w = 1 then some (.resetLine 1)
    else if w < 4 then some (.handshake (BitVec.ofNat 2 w))
    else none
  else if nbits = 2 then some (.handshake (BitVec.ofNat 2 w))
  else if nbits = 1 then some (.resetLine (BitVec.ofNat 1 w))
  else none

/-- The instruction the decoder reads from a word of the opcode table. -/
def decodeTableWord (nbits w : Nat) : Option Instr :=
  if w < 2 ^ nbits then
    match tableEncoding nbits w with
    | some e =>
      match decode e with
      | .ok i => some i
      | .error _ => none
    | none => none
  else none

end Sys2Proof
end

