-- ==== Sys2Proof/Machine/Operands.lean ====
section
/-! DEFINITION. Operand assembly (30_encoding.md R65) and the one addressing mode, the event field read (R51). -/

namespace Sys2Proof.Machine

/-- NOTE_ON's clamp of the velocity to 0..127 (R104). -/
def clampVelocity (velocity : Int) : Nat := (clamp velocity 0 127).toNat

/-- The notes of the active slots (R102), in rising order: which slot holds a note does not enter (R24 item 3). -/
def soundingNotes (vs : List Voice) : List Byte :=
  ((List.range 256).map (BitVec.ofNat 8)).filter fun b => vs.any fun v => v.active && v.noteId == b

/-- The first byte from `b` upward, wrapping, that is not listed, in at most that many tries. -/
def firstUnlisted (listed : List Byte) : (tries : Nat) → Byte → Byte
  | 0, b => b
  | tries + 1, b => if b ∈ listed then firstUnlisted listed tries (b + 1) else b

/-- What the u8 `noteId` register holds for a note operand (R11): the number itself where it fits; a call's other
integers leave a free value, but a note that no slot is sounding (R14 item 4, log 15). -/
def noteRegister (noteId : Int) (vs : List Voice) : Byte :=
  if fitsByte noteId then BitVec.ofInt 8 noteId
  else firstUnlisted (soundingNotes vs) 255 (Config.noteIdNotFitting noteId (soundingNotes vs))

/-- The address of byte 0 of record k: `dataPointer + 6·k` (R45, R51). -/
def recordBase (s : State) (k : Nat) : Nat := s.dataPointer + 6 * k

/-- `deltaTicks(k)`, from bytes 0 and 1, big-endian (R41, R51). -/
def readDelta (s : State) (k : Nat) : Option Word :=
  match readByte s.stream (recordBase s k), readByte s.stream (recordBase s k + 1) with
  | some b0, some b1 => some (bigEndian b0 b1)
  | _, _ => none

/-- The command word of record k, from `type(k)`, `noteId(k)`, `velocity(k)`; the reserved byte is never read (R46, R51,
R169), so 0 stands in its place. -/
def readCommand (s : State) (k : Nat) : Option (BitVec 32) :=
  match readByte s.stream (recordBase s k + 2), readByte s.stream (recordBase s k + 3),
    readByte s.stream (recordBase s k + 4) with
  | some type, some noteId, some velocity => some (commandWord type noteId velocity 0)
  | _, _, _ => none

end Sys2Proof.Machine
end

