-- ==== Sys2Proof/Machine/Flags.lean ====
section
/-! DEFINITION. The `active` flags (R19): the scans that test them, from index 0 upward (R102, R103, R109), and
deactivation. The block has no condition codes; its other flag, `pcm_valid`, is written in Ops. -/

namespace Sys2Proof.Machine

/-- The slot is sounding that note: `active = 1` and `noteId` equal (R102). -/
def Voice.plays (noteId : Int) (v : Voice) : Bool := v.active && decide ((v.noteId.toNat : Int) = noteId)

/-- The first slot that plays the note (R102, R109). -/
def findNote (noteId : Int) (vs : List Voice) : Option Nat := vs.findIdx? (Voice.plays noteId)

/-- The first free slot (R103). -/
def findFree (vs : List Voice) : Option Nat := vs.findIdx? (fun v => !v.active)

/-- `active <- 0`, `currentLevel <- 0`; the other fields keep their values (R102, R109). -/
def Voice.deactivate (v : Voice) : Voice := { v with active := false, currentLevel := 0 }

/-- The first slot that plays the note, if any, is deactivated (R102, R109, R110). -/
def silenceNote (noteId : Int) (vs : List Voice) : List Voice :=
  match findNote noteId vs with
  | some r => vs.modify r Voice.deactivate
  | none => vs

/-- How many voices are active: the mixer's `count` (R122). -/
def activeCount (vs : List Voice) : Nat := vs.countP Voice.active

end Sys2Proof.Machine
end

