-- ==== Sys2Proof/Machine/Command.lean ====
section
/-! DEFINITION. The voice commands (40_voice_commands.md): NOTE_OFF, NOTE_ON_V0, NOTE_ON. -/

namespace Sys2Proof.Machine

/-- NOTE_OFF(noteId), R109, R110. -/
def noteOff (noteId : Int) (s : State) : State := setVoices (silenceNote noteId s.voices) s

/-- The slot a successful NOTE_ON leaves, in a table of those slots (R108). -/
def newVoice (cfg : Config) (vs : List Voice) (noteId : Int) (amplitude : Nat) : Voice :=
  { active := true
    noteId := noteRegister noteId vs
    frequency := freqOf cfg noteId
    targetAmplitude := BitVec.ofNat 16 amplitude
    currentLevel := BitVec.ofNat 16 amplitude
    halfPeriodSamples := halfPeriodOf cfg noteId
    samplesUntilFlip := halfPeriodOf cfg noteId }

/-- NOTE_ON(noteId, velocity), R101: retrigger (R102), allocation (R103), derived values (R104, R105), rejection (R107:
the chosen slot's `active` already is 0), activation (R106, R108). -/
def noteOn (noteId velocity : Int) (s : State) : State :=
  let retriggered := noteOff noteId s
  match findFree retriggered.voices with
  | none => report .voicePoolExhausted retriggered
  | some j =>
    let amplitude := ampOf s.cfg (clampVelocity velocity)
    if (freqOf s.cfg noteId).isNonPositive || amplitude == 0 then report .invalidNoteParameters retriggered
    else setVoices (retriggered.voices.set j (newVoice s.cfg retriggered.voices noteId amplitude)) retriggered

/-- The operation of a decoded command (R62), its bytes zero-extended (R65). -/
def runCommand : Command → State → State
  | .noteOff n, s => noteOff n.toNat s
  | .noteOnV0 n, s => noteOff n.toNat s
  | .noteOn n v, s => noteOn n.toNat v.toNat s

/-- NOTE_OFF. -/
def execNoteOff (noteId : Int) (s : State) : Host.Outcome State Fault Refusal := .next (noteOff noteId s)

/-- NOTE_ON_V0: a note-on with zero velocity is a note-off (R62). -/
def execNoteOnV0 (noteId : Byte) (s : State) : Host.Outcome State Fault Refusal :=
  .next (noteOff noteId.toNat s)

/-- NOTE_ON. -/
def execNoteOn (noteId velocity : Int) (s : State) : Host.Outcome State Fault Refusal :=
  .next (noteOn noteId velocity s)

end Sys2Proof.Machine
end

