-- ==== Sys2Proof/Machine/HostAgent.lean ====
section
/-! DEFINITION. The host agent (43_host_sequencer.md): LOAD_SONG, START, STOP, UPDATE and the event records. -/

namespace Sys2Proof.Machine

/-! ### UPDATE and the event records -/

/-- UPDATE's tests (1) to (3) of R168 in their order, at the sampled time; past them `event` runs. -/
def poll (event : State → Host.Outcome State Fault Refusal) (s : State) : Host.Outcome State Fault Refusal :=
  if !s.playing then .next (returnValue (.stillPlaying false) s)
  else if s.now < s.nextEventDueAt then .next (returnValue (.stillPlaying true) s)
  else if s.eventCount ≤ s.eventIndex then .next (returnValue (.stillPlaying false) (setPlaying false s))
  else event s

/-- R168 (6), R170: if there is a next event, its due time counts from this UPDATE's `now`; then UPDATE returns true. -/
def reschedule (s : State) : Host.Outcome State Fault Refusal :=
  if s.eventIndex < s.eventCount then
    match readDelta s s.eventIndex.toNat with
    | none => .fault (.eventStreamUnreadable s.eventIndex.toNat)
    | some d => .next (returnValue (.stillPlaying true) (setDue (s.now + delayOf s.cfg s.millisPerTick d) s))
  else .next (returnValue (.stillPlaying true) s)

/-- R168 (4) to (6) for an event whose command is given: dispatch (R169), advance, reschedule. -/
def processEvent (command : State → State) (s : State) : Host.Outcome State Fault Refusal :=
  reschedule (advanceCursor (command s))

/-- R168 (4): the record at the cursor is read, its command decoded (R169) and processed. -/
def processRecord (s : State) : Host.Outcome State Fault Refusal :=
  match readCommand s s.eventIndex.toNat with
  | none => .fault (.eventStreamUnreadable s.eventIndex.toNat)
  | some w =>
    match commandOf w with
    | .error e => .refused (.undecodable e)
    | .ok c => processEvent (runCommand c) s

/-- EV_OFF: polled at the time UPDATE sampled (R168). Its `deltaTicks` set the due time when the cursor reached it
(R164, R170; log 19). -/
def execEvOff (_deltaTicks : Word) (noteId : Byte) (s : State) : Host.Outcome State Fault Refusal :=
  poll (processEvent (runCommand (.noteOff noteId))) s

/-- EV_ON_V0: dispatches NOTE_OFF (R62, R168). -/
def execEvOnV0 (_deltaTicks : Word) (noteId : Byte) (s : State) : Host.Outcome State Fault Refusal :=
  poll (processEvent (runCommand (.noteOnV0 noteId))) s

/-- EV_ON: dispatches NOTE_ON (R168). -/
def execEvOn (_deltaTicks : Word) (noteId velocity : Byte) (s : State) : Host.Outcome State Fault Refusal :=
  poll (processEvent (runCommand (.noteOn noteId velocity))) s

/-- UPDATE(now), R168. Time that runs backwards is refused (R167, U8). -/
def execUpdate (now : Nat) (s : State) : Host.Outcome State Fault Refusal :=
  if now < s.now then .refused .timeRunsBackwards
  else poll processRecord (sampleTime now s)

/-! ### LOAD_SONG, START, STOP -/

/-- LOAD_SONG's failure (R161): reported, the song cleared, failure returned. -/
def rejectSong (s : State) : State := returnValue (.loaded false) (report .invalidDescriptor (clearSong s))

/-- LOAD_SONG(descriptor), R161, R162. A NaN or infinite `bpm` is refused where it would be used (U9, log 8). -/
def execLoadSong (dataPointer : Option Nat) (eventCount : Word) (bpm : BitVec 32) (s : State) :
    Host.Outcome State Fault Refusal :=
  match dataPointer with
  | none => .next (rejectSong s)
  | some p =>
    if eventCount = 0 then .next (rejectSong s)
    else
      match binary32Value bpm with
      | none => .refused .bpmNotFinite
      | some b =>
        .next (returnValue (.loaded true)
          (installSong p eventCount (millisPerTickOf s.cfg (tempoOf s.cfg b)) s))

/-- START(now), R164, R165. Time that runs backwards is refused (R167, U8). -/
def execStart (now : Nat) (s : State) : Host.Outcome State Fault Refusal :=
  if now < s.now then .refused .timeRunsBackwards
  else if s.playing || !s.songValid then .next (sampleTime now s)
  else if s.eventCount ≤ s.eventIndex then .next (sampleTime now s)
  else
    match readDelta s s.eventIndex.toNat with
    | none => .fault (.eventStreamUnreadable s.eventIndex.toNat)
    | some d => .next (setPlaying true (setDue (now + delayOf s.cfg s.millisPerTick d) (sampleTime now s)))

/-- STOP, R166. -/
def execStop (s : State) : Host.Outcome State Fault Refusal :=
  if s.playing then .next (setPlaying false s) else .next s

end Sys2Proof.Machine
end

