-- ==== Sys2Proof/Machine/Producer.lean ====
section
/-! DEFINITION. The producer's steps (41_render_mixer.md, 42_pcm_writer.md): RENDER, EMIT, HOLD. -/

namespace Sys2Proof.Machine

/-- The oscillator step of one slot (R121); an inactive slot is not touched (R120). -/
def oscillate (v : Voice) : Voice :=
  if v.active then
    if v.samplesUntilFlip = 0 then
      { v with
        currentLevel := if v.currentLevel = v.targetAmplitude then -v.targetAmplitude else v.targetAmplitude
        samplesUntilFlip := v.halfPeriodSamples }
    else { v with samplesUntilFlip := v.samplesUntilFlip - 1 }
  else v

/-- What a slot adds to the mix: its level, or nothing when inactive (R13, R122). -/
def Voice.contribution (v : Voice) : Int := if v.active then v.currentLevel.toInt else 0

/-- `sum`, exact (R18, R122). -/
def mixSum (vs : List Voice) : Int := (vs.map Voice.contribution).sum

/-- The mixed sample of the levels as they stand: silence with no active voice (R127), else the truncated average (R122),
clamped (R123). -/
def mix (vs : List Voice) : Word :=
  if activeCount vs = 0 then 0
  else BitVec.ofInt 16 (clamp (sdivTrunc (mixSum vs) (activeCount vs)) (-32768) 32767)

/-- RENDER's effect (R120); the oscillators step before the levels are summed (R121). -/
def render (s : State) : State :=
  fillPcm (mix (s.voices.map oscillate)) (setVoices (s.voices.map oscillate) s)

/-- RENDER; precondition `pcm_valid = 0` (R120). -/
def execRender (s : State) : Host.Outcome State Fault Refusal :=
  if s.pcmValid then .refused .producerStepNotEnabled else .next (render s)

/-- EMIT; precondition `pcm_valid = 1` (R143). -/
def execEmit (s : State) : Host.Outcome State Fault Refusal :=
  if s.pcmValid then .next (outputFrame s) else .refused .producerStepNotEnabled

/-- HOLD: the identity (R144); selected only with `pcm_valid = 1`. -/
def execHold (s : State) : Host.Outcome State Fault Refusal :=
  if s.pcmValid then .next s else .refused .producerStepNotEnabled

end Sys2Proof.Machine
end

