-- ==== Sys2Proof/Machine/Dispatch.lean ====
section
/-! DEFINITION. One arm per operation (R70). -/

namespace Sys2Proof.Machine

def exec (i : Instr) (s : State) : Host.Outcome State Fault Refusal :=
  match i with
  | .noteOff noteId => Sys2Proof.Machine.execNoteOff noteId s
  | .noteOnV0 noteId => Sys2Proof.Machine.execNoteOnV0 noteId s
  | .noteOn noteId velocity => Sys2Proof.Machine.execNoteOn noteId velocity s
  | .render => Sys2Proof.Machine.execRender s
  | .emit => Sys2Proof.Machine.execEmit s
  | .hold => Sys2Proof.Machine.execHold s
  | .reset => Sys2Proof.Machine.execReset s
  | .evOff deltaTicks noteId => Sys2Proof.Machine.execEvOff deltaTicks noteId s
  | .evOnV0 deltaTicks noteId => Sys2Proof.Machine.execEvOnV0 deltaTicks noteId s
  | .evOn deltaTicks noteId velocity => Sys2Proof.Machine.execEvOn deltaTicks noteId velocity s
  | .loadSong dataPointer eventCount bpm => Sys2Proof.Machine.execLoadSong dataPointer eventCount bpm s
  | .start now => Sys2Proof.Machine.execStart now s
  | .stop => Sys2Proof.Machine.execStop s
  | .update now => Sys2Proof.Machine.execUpdate now s

end Sys2Proof.Machine
end

