-- ==== Sys2Proof/Machine/Fetch.lean ====
section
/-! DEFINITION. What selects the next operation (R70), and how a word of the opcode table is placed there. The block has
no program counter and no fetch (R22): its operations are selected by its ports, the host's by its callers. -/

namespace Sys2Proof.Machine

/-- The pattern `pcm_valid pcm_ready` (R68). -/
def handshakePattern (pcmValid pcmReady : Bool) : BitVec 2 := BitVec.ofBool pcmValid ++ BitVec.ofBool pcmReady

/-- The form an input presents, given the block's `pcm_valid` (R66, R68, R70). -/
def Input.encoded (pcmValid : Bool) : Input → Encoded
  | .command w => .command w
  | .noteOnCall n v => .noteOnCall n v
  | .noteOffCall n => .noteOffCall n
  | .producer ready => .handshake (handshakePattern pcmValid ready)
  | .hostCall op args => .hostCall op args

/-- What selects the next operation, and the state with the inputs of that step taken. `rst = 1` overrides everything
else and accepts no command (R69, R230). With no input queued the producer goes on by itself (R140, R148), `pcm_ready`
being a free value where it matters (R68, log 1). -/
def fetch (s : State) : Encoded × State :=
  match s.rstLine with
  | true :: rest => (.resetLine 1, { s with rstLine := rest })
  | low =>
    match s.inputs with
    | i :: rest => (i.encoded s.pcmValid, { s with rstLine := low.tail, inputs := rest })
    | [] =>
      if s.pcmValid then
        (.handshake (handshakePattern true (Config.freePcmReady s.readyCount)),
          { s with rstLine := low.tail, readyCount := s.readyCount + 1 })
      else (.handshake (handshakePattern false false), { s with rstLine := low.tail })

/-- Queue an input for the coming step, with `rst = 0`. -/
def queueInput (i : Input) (s : State) : State :=
  { s with rstLine := false :: s.rstLine, inputs := i :: s.inputs }

/-- The record stands alone at `dataPointer`, loaded, playing and due, and an UPDATE is called: what a song of that one
record needs for its event to run (R164, R168; log 27). -/
def stageRecord (record : BitVec 48) (s : State) : State :=
  queueInput (.hostCall 3 { noArgs with now := s.now })
    { s with
      stream := writeBytes s.stream s.dataPointer (bytesOfRecord record)
      songValid := true
      playing := true
      eventIndex := 0
      eventCount := 1
      nextEventDueAt := s.now }

/-- The ports as that form has them, so that the coming step selects it. -/
def presentEncoded : Encoded → State → State
  | .command w, s => queueInput (.command w) s
  | .noteOnCall n v, s => queueInput (.noteOnCall n v) s
  | .noteOffCall n, s => queueInput (.noteOffCall n) s
  | .handshake p, s =>
    queueInput (.producer (p.getLsbD 0)) { s with pcmValid := p.getLsbD 1 }
  | .resetLine level, s => { s with rstLine := (level == 1) :: s.rstLine }
  | .event r, s => stageRecord r s
  | .hostCall op args, s => queueInput (.hostCall op args) s

/-- A launch with the guard in a configuration within its constraints, without which no operation runs (R205, U13). -/
def readyToRun (s : State) : State :=
  { s with launch := .guardOk, cfg := if configInRange s.cfg then s.cfg else Config.reference }

end Sys2Proof.Machine
end

