-- ==== Sys2Proof/Machine/Step.lean ====
section
/-! DEFINITION. One step of the system: one operation of one agent (R7, R47). -/

namespace Sys2Proof.Machine

/-- One step. A launch without the guard reports code 4 once and is then stuck in its reset state (R205, R232). -/
def step (s : State) : Host.Outcome State Fault Refusal :=
  if configInRange s.cfg then
    match s.launch with
    | .guardFailed => .next { report .mutexAcquisitionFailure s with launch := .aborted }
    | .aborted => .next s
    | .guardOk =>
      match decode (fetch s).1 with
      | .ok i => exec i (fetch s).2
      | .error e => .refused (.undecodable e)
  else .refused .configurationOutOfRange

/-- The state in which the next step runs the instruction of that word of the opcode table. -/
def State.withFetchWord (s : State) (nbits w : Nat) : State :=
  match tableEncoding nbits w with
  | some e => presentEncoded e (readyToRun s)
  | none => s

end Sys2Proof.Machine
end

