-- ==== Sys2Proof/Safety.lean ====
section
/-! DEFINITION. The terms in which claims are stated: the invariants of 10_state.md R13, R14 and of the host, the host's
four states (R26), and what an output can depend on (R15, R24, R147). -/

namespace Sys2Proof.Machine

/-! ### When an operation runs -/

/-- A launch with the guard in an admissible configuration (R205, U13). -/
abbrev Running (s : State) : Prop := configInRange s.cfg = true ∧ s.launch = .guardOk

/-- The coming step takes this input: `rst` is 0 and the input is the first one queued (R69, log 1). -/
abbrev NextInput (s : State) (i : Input) (rest : List Input) : Prop :=
  Running s ∧ rstLevel s = false ∧ s.inputs = i :: rest

/-- The slot sounds that note (R102). -/
abbrev Sounds (v : Voice) (noteId : Int) : Prop := v.active = true ∧ (v.noteId.toNat : Int) = noteId

/-- `n` steps, stopping at the first fault or refusal: a finite prefix of the endless trace (R148). -/
def runFor : Nat → State → Host.Outcome State Fault Refusal
  | 0, s => .next s
  | n + 1, s =>
    match step s with
    | .next t => runFor n t
    | .fault f => .fault f
    | .refused r => .refused r

/-- UPDATE called at each of those times in order, stopping at the first fault or refusal. -/
def pollAt : List Nat → State → Host.Outcome State Fault Refusal
  | [], s => .next s
  | now :: later, s =>
    match exec (.update now) s with
    | .next t => pollAt later t
    | .fault f => .fault f
    | .refused r => .refused r

/-! ### Invariants -/

/-- R14 items 1, 2, 3 and 5 for one slot. -/
abbrev VoiceInv (cfg : Config) (v : Voice) : Prop :=
  (v.active = true →
    1 ≤ v.targetAmplitude.toInt ∧ v.targetAmplitude.toInt ≤ cfg.aMax ∧
    (v.currentLevel = v.targetAmplitude ∨ v.currentLevel = -v.targetAmplitude) ∧
    1 ≤ v.halfPeriodSamples.toNat ∧ v.samplesUntilFlip.toNat ≤ v.halfPeriodSamples.toNat) ∧
  (v.active = false → v.currentLevel = 0)

/-- R14 item 4: no note sounds in two slots. -/
abbrev Exclusive (vs : List Voice) : Prop :=
  vs.Pairwise fun v w => v.active = true → w.active = true → v.noteId ≠ w.noteId

/-- R10, R14 items 1 to 5: N slots, each sound, exclusive. -/
abbrev TableInv (s : State) : Prop :=
  s.voices.length = s.cfg.numVoices ∧ (∀ v ∈ s.voices, VoiceInv s.cfg v) ∧ Exclusive s.voices

/-- R14 item 6, with the bound of R126. -/
abbrev PcmInv (s : State) : Prop :=
  s.pcmValid = true → -(s.cfg.aMax : Int) ≤ s.pcmSample.toInt ∧ s.pcmSample.toInt ≤ s.cfg.aMax

/-- The host's registers (R26): playing needs a song, a song has records and a positive tick length, the cursor stays
within the song, and an exhausted cursor leaves no due time ahead (R171). -/
abbrev HostInv (s : State) : Prop :=
  (s.playing = true → s.songValid = true) ∧
  (s.songValid = true → s.eventCount ≠ 0 ∧ 0 < s.millisPerTick) ∧
  s.eventIndex ≤ s.eventCount ∧
  (s.playing = true → s.eventIndex = s.eventCount → s.nextEventDueAt ≤ s.now)

/-- A launch without the guard stays in the reset state and emits nothing (R205, R232). -/
abbrev LaunchInv (s : State) : Prop :=
  s.launch ≠ .guardOk →
    s.voices = List.replicate s.cfg.numVoices Voice.reset ∧ s.pcmValid = false ∧ s.pcmSample = 0 ∧ s.frames = []

/-- The invariant of the machine: a configuration of R6, the block's and the host's invariants, and canonical
memory. -/
abbrev Inv (s : State) : Prop :=
  configInRange s.cfg = true ∧ TableInv s ∧ PcmInv s ∧ HostInv s ∧ LaunchInv s ∧ Memory.wf s.stream = true

/-! ### The host's states (R26) -/

/-- The four states of DOC0 §4.2. -/
inductive HostMode where
  | idle
  | loaded
  | playing
  | finished
  deriving DecidableEq, Repr

/-- R26's conditions. -/
def hostMode (s : State) : HostMode :=
  if !s.songValid then .idle
  else if s.playing then .playing
  else if s.eventIndex < s.eventCount then .loaded
  else .finished

/-! ### What an output can depend on (R15, R24, R147) -/

/-- A slot less what carries no meaning: every field of an inactive slot but `active` (R15). -/
def Voice.visible (v : Voice) : Voice := if v.active then v else Voice.reset

/-- Two states that differ at most in fields of inactive slots. -/
def SameButInactive (s t : State) : Prop :=
  { s with voices := s.voices.map Voice.visible } = { t with voices := t.voices.map Voice.visible }

/-- Two states with the same voices sounding, in whatever slots (R24 item 3), and everything else the same but what
inactive slots hold. -/
def SameUpToSlots (s t : State) : Prop :=
  (s.voices.map Voice.visible).Perm (t.voices.map Voice.visible) ∧ { s with voices := [] } = { t with voices := [] }

/-- Two such states in which no note is in two slots (R14 item 4), of 255 slots at most (R6): what steps keep. -/
def SamePools (s t : State) : Prop := SameUpToSlots s t ∧ Exclusive s.voices ∧ s.voices.length ≤ 255

/-- A slot less what `halfPeriodOf` gave it. -/
def Voice.lessPeriod (v : Voice) : Voice := { v with halfPeriodSamples := 0, samplesUntilFlip := 0 }

/-- The same state built for another `SAMPLE_RATE`. -/
def atRate (rate : Nat) (s : State) : State := { s with cfg := { s.cfg with sampleRate := rate } }

/-- Two states that differ at most in `SAMPLE_RATE` and in what `halfPeriodOf` gave their slots (R147). -/
def SameButPeriods (s t : State) : Prop :=
  atRate 0 { s with voices := s.voices.map Voice.lessPeriod } =
    atRate 0 { t with voices := t.voices.map Voice.lessPeriod }

/-- Two outcomes of one kind, with related next states or the same reason to stop. -/
def AgreeingOutcomes (related : State → State → Prop) :
    Host.Outcome State Fault Refusal → Host.Outcome State Fault Refusal → Prop
  | .next s, .next t => related s t
  | .fault f, .fault g => f = g
  | .refused f, .refused g => f = g
  | _, _ => False

end Sys2Proof.Machine
end

