-- ==== Sys2Proof/Certificates/Slice0/Obligations.lean ====
section
/-! DEFINITION. The statements for the provers: what the operations of spec/ do, file by file. -/

open Sys2Proof Sys2Proof.Machine

/-! ### Encodings and step selection (30_encoding.md) -/

/-- Decoding the form of a well-formed instruction gives it back, with every operand (R60 to R70). -/
def Obligations.DecodeOfEncode : Prop :=
  ∀ i : Instr, i.wellFormed = true → decode (encode i) = .ok i

/-- R62, on the word as a number: `type`, then `velocity`; type 1 with velocity 0 does what NOTE_OFF does. -/
def Obligations.CommandWordDecode : Prop :=
  ∀ w : BitVec 32,
    let type : Nat := w.toNat / 2 ^ 24
    let noteId : Nat := w.toNat / 2 ^ 16 % 256
    let velocity : Nat := w.toNat / 2 ^ 8 % 256
    (type = 1 → 0 < velocity → decode (.command w) = .ok (.noteOn noteId velocity)) ∧
    (type = 1 → velocity = 0 → decode (.command w) = .ok (.noteOnV0 (BitVec.ofNat 8 noteId)) ∧
      ∀ s : State, exec (.noteOnV0 (BitVec.ofNat 8 noteId)) s = exec (.noteOff noteId) s) ∧
    (type = 0 → decode (.command w) = .ok (.noteOff noteId)) ∧
    (2 ≤ type → ∃ e, decode (.command w) = .error e)

/-- The record at `dataPointer + 6·k` decodes to the event its bytes 0 to 4 say, whatever byte 5 is (R41, R45, R51, R60):
`deltaTicks` big-endian, then the command of bytes 2 to 4. -/
def Obligations.RecordDecode : Prop :=
  ∀ (s : State) (k : Nat) (b0 b1 type noteId velocity reserved : Byte),
    readByte s.stream (s.dataPointer + 6 * k) = some b0 →
    readByte s.stream (s.dataPointer + 6 * k + 1) = some b1 →
    readByte s.stream (s.dataPointer + 6 * k + 2) = some type →
    readByte s.stream (s.dataPointer + 6 * k + 3) = some noteId →
    readByte s.stream (s.dataPointer + 6 * k + 4) = some velocity →
    ∃ (d : Word) (w : BitVec 32),
      readDelta s k = some d ∧ d.toNat = 256 * b0.toNat + b1.toNat ∧
      readCommand s k = some w ∧
      w.toNat = 2 ^ 24 * type.toNat + 2 ^ 16 * noteId.toNat + 2 ^ 8 * velocity.toNat ∧
      decode (.event (recordOfBytes b0 b1 type noteId velocity reserved)) =
        if type = 1 then
          if velocity = 0 then .ok (.evOnV0 d noteId) else .ok (.evOn d noteId velocity)
        else if type = 0 then .ok (.evOff d noteId)
        else .error (.reservedType type)

/-- Words written out from the spec (R73, V1 to V9): sanity. -/
def Obligations.SpecWordsDecode : Prop :=
  decodeTableWord 32 0x013C6400 = some (.noteOn 60 100) ∧
  decodeTableWord 32 0x003C7F00 = some (.noteOff 60) ∧
  decodeTableWord 32 0x01400000 = some (.noteOnV0 64) ∧
  decodeTableWord 32 0x013C64A5 = some (.noteOn 60 100) ∧
  decodeTableWord 32 0x023C6400 = none ∧
  decodeTableWord 48 0x012C01457F00 = some (.evOn 300 69 127) ∧
  decodeTableWord 48 0xFFFF00FF0000 = some (.evOff 65535 255)

/-- When the input at hand decodes, the instruction is well formed and the step is `exec` of it, the input taken. -/
def Obligations.StepRunsTheDecodedInstruction : Prop :=
  ∀ (s : State) (inp : Input) (rest : List Input) (i : Instr),
    NextInput s inp rest → decode (inp.encoded s.pcmValid) = .ok i →
    i.wellFormed = true ∧ step s = exec i { s with rstLine := s.rstLine.tail, inputs := rest }

/-- R141: in every state exactly one producer step is enabled, and it runs. -/
def Obligations.ProducerStepSelection : Prop :=
  ∀ (s : State) (ready : Bool) (rest : List Input), NextInput s (.producer ready) rest →
    let s' : State := { s with rstLine := s.rstLine.tail, inputs := rest }
    (s.pcmValid = false → step s = exec .render s') ∧
    (s.pcmValid = true → ready = true → step s = exec .emit s') ∧
    (s.pcmValid = true → ready = false → step s = exec .hold s') ∧
    ∃ t, step s = .next t

/-- The model's choice (log 1): with no input queued the producer goes on by itself (R140, R148), with `pcm_ready` free. -/
def Obligations.ProducerFreeRuns : Prop :=
  ∀ s : State, Running s → rstLevel s = false → s.inputs = [] →
    (s.pcmValid = false → step s = exec .render { s with rstLine := s.rstLine.tail } ∧ ∃ t, step s = .next t) ∧
    (s.pcmValid = true → ∃ i : Instr, (i = .emit ∨ i = .hold) ∧
      step s = exec i { s with rstLine := s.rstLine.tail, readyCount := s.readyCount + 1 } ∧
      ∃ t, step s = .next t)

/-- R69: `rst = 1` selects RESET over everything else; that every queued input stays queued is the model's
choice (log 28). -/
def Obligations.ResetLineOverridesEverything : Prop :=
  ∀ (s : State) (rest : List Bool), Running s → s.rstLine = true :: rest →
    step s = exec .reset { s with rstLine := rest } ∧
    ∃ t, step s = .next t ∧ t.inputs = s.inputs ∧ cmdReady s = false

/-! ### Launch and refused runs (60_exceptions.md, 93_implementation_defined.md) -/

/-- R205, R232 (log 11): without the guard, code 4 is reported once and nothing else ever happens. -/
def Obligations.StuckWithoutTheGuard : Prop :=
  ∀ s : State, configInRange s.cfg = true → s.launch = .guardFailed →
    let t : State := { s with launch := .aborted, diags := s.diags ++ [.mutexAcquisitionFailure] }
    step s = .next t ∧ ∀ n : Nat, runFor n t = .next t

/-- U1, U8, U9, U13, U17: the runs a model refuses, each by name: a reserved type in a command word and in the record a
due UPDATE comes to (at dispatch: log 7), a configuration outside R6 and no other (the rate judged by the exact half-period in every build: the
model's choice, log 31), a `bpm` that is no number (which bits those are: the
model's, log 6), time running backwards, and a byte that START, UPDATE or an event record (an instruction by log 19)
needs and the stream does not have (the model faults there, log 10). -/
def Obligations.RefusedRuns : Prop :=
  (∀ (s : State) (w : BitVec 32) (rest : List Input), NextInput s (.command w) rest → 2 ≤ w.toNat / 2 ^ 24 →
    step s = .refused (.undecodable (.reservedType (BitVec.ofNat 8 (w.toNat / 2 ^ 24))))) ∧
  (∀ s : State, step s = .refused .configurationOutOfRange ↔
    s.cfg.numVoices = 0 ∨ 255 < s.cfg.numVoices ∨ s.cfg.aMax = 0 ∨ 32767 < s.cfg.aMax ∨ s.cfg.sampleRate = 0 ∨
      65535 < ⌊(s.cfg.sampleRate : ℝ) / (2 * (440 * (2 : ℝ) ^ (((0 : ℝ) - 69) / 12))) + 1 / 2⌋ ∨
      s.cfg.tpqn = 0 ∨ s.cfg.defaultBpm = 0) ∧
  (∀ (s : State) (p : Nat) (c : Word) (bpm : BitVec 32), c ≠ 0 → bpm.toNat / 2 ^ 23 % 256 = 255 →
    exec (.loadSong (some p) c bpm) s = .refused .bpmNotFinite) ∧
  (∀ (s : State) (now : Nat), now < s.now →
    exec (.start now) s = .refused .timeRunsBackwards ∧ exec (.update now) s = .refused .timeRunsBackwards) ∧
  (∀ (s : State) (now : Nat), s.now ≤ now → s.playing = false → s.songValid = true →
    s.eventIndex.toNat < s.eventCount.toNat →
    readByte s.stream (s.dataPointer + 6 * s.eventIndex.toNat) = none ∨
      readByte s.stream (s.dataPointer + 6 * s.eventIndex.toNat + 1) = none →
    exec (.start now) s = .fault (.eventStreamUnreadable s.eventIndex.toNat)) ∧
  ∀ (s : State) (now : Nat), s.now ≤ now → s.playing = true → s.nextEventDueAt ≤ now →
    s.eventIndex.toNat < s.eventCount.toNat →
    let base := s.dataPointer + 6 * s.eventIndex.toNat
    (readByte s.stream (base + 2) = none ∨ readByte s.stream (base + 3) = none ∨ readByte s.stream (base + 4) = none →
      exec (.update now) s = .fault (.eventStreamUnreadable s.eventIndex.toNat)) ∧
    (∀ type noteId velocity : Byte, readByte s.stream (base + 2) = some type →
      readByte s.stream (base + 3) = some noteId → readByte s.stream (base + 4) = some velocity →
      (2 ≤ type.toNat → exec (.update now) s = .refused (.undecodable (.reservedType type))) ∧
      (type.toNat < 2 → s.eventIndex.toNat + 1 < s.eventCount.toNat →
        readByte s.stream (base + 6) = none ∨ readByte s.stream (base + 7) = none →
        exec (.update now) s = .fault (.eventStreamUnreadable (s.eventIndex.toNat + 1)))) ∧
    (s.eventIndex.toNat + 1 < s.eventCount.toNat →
      readByte s.stream (base + 6) = none ∨ readByte s.stream (base + 7) = none →
      ∀ (d : Word) (noteId velocity : Byte) (ev : Instr),
        ev ∈ [Instr.evOff d noteId, .evOnV0 d noteId, .evOn d noteId velocity] →
        exec ev { s with now := now } = .fault (.eventStreamUnreadable (s.eventIndex.toNat + 1)))

/-- From a state of the invariant, a step stops only on the inputs for which the spec has a model refuse (R200, U1, U8,
U9, U17), and where the model places those stops: a command word of a reserved type, or a due UPDATE on a record of one
(refused at dispatch and not when the stream is loaded: DEDUCED, log 7); LOAD_SONG with a `bpm` whose bits are no number
(log 6), if the pointer is not null and the count not 0 (DEDUCED, log 8); START or UPDATE at an earlier time (log 9); or
START or a due UPDATE that comes to a byte the event stream does not have (a fault, log 10). -/
def Obligations.StopsAreTheSpecsOwn : Prop :=
  ∀ s : State, Inv s →
    (∀ r, step s = .refused r → ∃ (inp : Input) (rest : List Input), NextInput s inp rest ∧
      ((∃ w, inp = .command w ∧ 2 ≤ w.toNat / 2 ^ 24 ∧
          r = .undecodable (.reservedType (BitVec.ofNat 8 (w.toNat / 2 ^ 24)))) ∨
        (∃ (args : CallArgs) (type : Byte), inp = .hostCall 3 args ∧ s.now ≤ args.now ∧ s.playing = true ∧
          s.nextEventDueAt ≤ args.now ∧ s.eventIndex.toNat < s.eventCount.toNat ∧
          readByte s.stream (s.dataPointer + 6 * s.eventIndex.toNat + 2) = some type ∧ 2 ≤ type.toNat ∧
          r = .undecodable (.reservedType type)) ∨
        (∃ args : CallArgs, inp = .hostCall 0 args ∧ args.dataPointer ≠ none ∧ args.eventCount ≠ 0 ∧
          args.bpm.toNat / 2 ^ 23 % 256 = 255 ∧ r = .bpmNotFinite) ∨
        (∃ (op : BitVec 2) (args : CallArgs), (op = 1 ∨ op = 3) ∧ inp = .hostCall op args ∧ args.now < s.now ∧
          r = .timeRunsBackwards))) ∧
    (∀ f, step s = .fault f → ∃ (op : BitVec 2) (args : CallArgs) (rest : List Input) (k a : Nat),
      NextInput s (.hostCall op args) rest ∧ s.now ≤ args.now ∧
      f = .eventStreamUnreadable k ∧ k < s.eventCount.toNat ∧ readByte s.stream a = none ∧
      ((op = 1 ∧ s.playing = false ∧ s.songValid = true ∧ k = s.eventIndex.toNat ∧
          (a = s.dataPointer + 6 * k ∨ a = s.dataPointer + 6 * k + 1)) ∨
        (op = 3 ∧ s.playing = true ∧ s.nextEventDueAt ≤ args.now ∧
          (k = s.eventIndex.toNat ∧
              (a = s.dataPointer + 6 * k + 2 ∨ a = s.dataPointer + 6 * k + 3 ∨ a = s.dataPointer + 6 * k + 4) ∨
            k = s.eventIndex.toNat + 1 ∧ (a = s.dataPointer + 6 * k ∨ a = s.dataPointer + 6 * k + 1)))))

/-! ### NOTE_OFF and NOTE_ON (40_voice_commands.md) -/

/-- R109: the first voice that sounds the note stops at once; everything else is as before. -/
def Obligations.NoteOffFreesTheFirstMatch : Prop :=
  ∀ (s : State) (noteId : Int) (r : Nat) (v : Voice),
    s.voices[r]? = some v → Sounds v noteId →
    (∀ (i : Nat) (w : Voice), i < r → s.voices[i]? = some w → ¬ Sounds w noteId) →
    exec (.noteOff noteId) s =
      .next { s with voices := s.voices.set r { v with active := false, currentLevel := 0 } }

/-- R110: with no match NOTE_OFF changes nothing and reports nothing. -/
def Obligations.NoteOffWithoutMatchDoesNothing : Prop :=
  ∀ (s : State) (noteId : Int), (∀ w ∈ s.voices, ¬ Sounds w noteId) →
    exec (.noteOff noteId) s = .next s

/-- R62, R109, R110 for the zero-velocity note-on word: the same two cases. -/
def Obligations.NoteOnV0IsNoteOff : Prop :=
  ∀ (s : State) (noteId : Byte),
    (∀ (r : Nat) (v : Voice), s.voices[r]? = some v → Sounds v noteId.toNat →
      (∀ (i : Nat) (w : Voice), i < r → s.voices[i]? = some w → ¬ Sounds w noteId.toNat) →
      exec (.noteOnV0 noteId) s =
        .next { s with voices := s.voices.set r { v with active := false, currentLevel := 0 } }) ∧
    ((∀ w ∈ s.voices, ¬ Sounds w noteId.toNat) → exec (.noteOnV0 noteId) s = .next s)

/-- R103 to R108: a note 0..255 that is not sounding takes the lowest free slot, in the positive half of its wave with a
full countdown, in every build; nothing else changes and nothing is reported. -/
def Obligations.NoteOnTakesTheLowestFreeSlot : Prop :=
  ∀ (s : State) (noteId velocity : Int) (j : Nat) (v : Voice),
    0 ≤ noteId → noteId ≤ 255 →
    (∀ w ∈ s.voices, ¬ Sounds w noteId) →
    s.voices[j]? = some v → v.active = false →
    (∀ (i : Nat) (w : Voice), i < j → s.voices[i]? = some w → w.active = true) →
    let amplitude := ampOf s.cfg (clampVelocity velocity)
    amplitude ≠ 0 →
    exec (.noteOn noteId velocity) s =
      .next { s with
        voices := s.voices.set j
          { active := true
            noteId := BitVec.ofInt 8 noteId
            frequency := .ofNote noteId
            targetAmplitude := BitVec.ofNat 16 amplitude
            currentLevel := BitVec.ofNat 16 amplitude
            halfPeriodSamples := halfPeriodOf s.cfg noteId
            samplesUntilFlip := halfPeriodOf s.cfg noteId } }

/-- R102: NOTE_ON of a sounding note is NOTE_OFF and then NOTE_ON; for a note that is not sounding that is no change. -/
def Obligations.RetriggerIsNoteOffFirst : Prop :=
  ∀ (s : State) (noteId velocity : Int), Exclusive s.voices →
    ∃ t u, exec (.noteOff noteId) s = .next t ∧ exec (.noteOn noteId velocity) s = .next u ∧
      exec (.noteOn noteId velocity) t = .next u

/-- R111 item 3: with every slot active, a note-on of a sounding note succeeds in its own slot, in every build. -/
def Obligations.RetriggerAtAFullPoolSucceeds : Prop :=
  ∀ (s : State) (noteId velocity : Int) (r : Nat) (v : Voice),
    (∀ w ∈ s.voices, w.active = true) →
    s.voices[r]? = some v → Sounds v noteId →
    (∀ (i : Nat) (w : Voice), i < r → s.voices[i]? = some w → ¬ Sounds w noteId) →
    let amplitude := ampOf s.cfg (clampVelocity velocity)
    amplitude ≠ 0 →
    exec (.noteOn noteId velocity) s =
      .next { s with
        voices := s.voices.set r
          { active := true
            noteId := v.noteId
            frequency := .ofNote noteId
            targetAmplitude := BitVec.ofNat 16 amplitude
            currentLevel := BitVec.ofNat 16 amplitude
            halfPeriodSamples := halfPeriodOf s.cfg noteId
            samplesUntilFlip := halfPeriodOf s.cfg noteId } }

/-- R103, R202, R207: with every slot sounding another note, the note is dropped and `VoicePoolExhausted` reported,
whatever the velocity. -/
def Obligations.ExhaustedPoolDropsTheNote : Prop :=
  ∀ (s : State) (noteId velocity : Int), (∀ w ∈ s.voices, w.active = true ∧ ¬ Sounds w noteId) →
    exec (.noteOn noteId velocity) s = .next { s with diags := s.diags ++ [.voicePoolExhausted] }

/-- R107, R111 items 4 and 6, R203: an amplitude of 0, or a frequency that is not positive (which only a build with other
numeric functions has, log 3), rejects the note, after the retrigger has silenced it; in every build a velocity of 0 or
less is such a case. -/
def Obligations.ZeroAmplitudeIsRejected : Prop :=
  ∀ (s : State) (noteId velocity : Int),
    (∃ w ∈ s.voices, w.active = false ∨ Sounds w noteId) →
    (freqOf s.cfg noteId).isNonPositive = true ∨ ampOf s.cfg (clampVelocity velocity) = 0 ∨ velocity ≤ 0 →
    ∃ t, exec (.noteOff noteId) s = .next t ∧
      exec (.noteOn noteId velocity) s = .next { t with diags := t.diags ++ [.invalidNoteParameters] }

/-- R103, R202, R207: NOTE_ON always completes, whatever its operands and the numeric functions; it writes the voice
table and at most one diagnostic, and a voice sounding another note keeps every field (no voice stealing). -/
def Obligations.NoteOnStealsNoVoice : Prop :=
  ∀ (s : State) (noteId velocity : Int), ∃ t d, exec (.noteOn noteId velocity) s = .next t ∧
    t = { s with voices := t.voices, diags := s.diags ++ d } ∧
    (d = [] ∨ d = [.voicePoolExhausted] ∨ d = [.invalidNoteParameters]) ∧
    t.voices.length = s.voices.length ∧
    (∀ (i : Nat) (v : Voice), s.voices[i]? = some v → v.active = true → ¬ Sounds v noteId → t.voices[i]? = some v) ∧
    (d ≠ [] → ∀ (i : Nat) (v : Voice), s.voices[i]? = some v → v.active = false → t.voices[i]? = some v)

/-- The call `noteOn` with a note number outside 0..255 (R65, R100): it completes as for any note, with the note's
half-period (R106), in every build; what the u8 note register then holds is free, but a note that no slot sounds (R14
item 4; the model's choice, log 15). -/
def Obligations.NoteOnOutsideTheRegister : Prop :=
  ∀ (s : State) (noteId velocity : Int) (j : Nat) (v : Voice),
    (noteId < 0 ∨ 255 < noteId) → s.voices.length ≤ 255 →
    s.voices[j]? = some v → v.active = false →
    (∀ (i : Nat) (w : Voice), i < j → s.voices[i]? = some w → w.active = true) →
    let amplitude := ampOf s.cfg (clampVelocity velocity)
    (freqOf s.cfg noteId).isNonPositive = false → amplitude ≠ 0 →
    ∃ note : Byte, (∀ w ∈ s.voices, w.active = true → w.noteId ≠ note) ∧
      exec (.noteOn noteId velocity) s =
        .next { s with
          voices := s.voices.set j
            { active := true
              noteId := note
              frequency := .ofNote noteId
              targetAmplitude := BitVec.ofNat 16 amplitude
              currentLevel := BitVec.ofNat 16 amplitude
              halfPeriodSamples := halfPeriodOf s.cfg noteId
              samplesUntilFlip := halfPeriodOf s.cfg noteId } }

/-- R104: `ampOf` rounds `vel × A_MAX / 127` to the nearest integer, meets no tie, and has the properties listed. -/
def Obligations.AmplitudeMapping : Prop :=
  ∀ cfg : Config, cfg.numerics = .reference →
    (∀ velocity : Int, (clampVelocity velocity : Int) = max 0 (min velocity 127)) ∧
    (∀ vel : Nat, |(ampOf cfg vel : ℚ) - (vel : ℚ) * cfg.aMax / 127| < 1 / 2) ∧
    (∀ vel : Nat, ampOf cfg vel = (2 * vel * cfg.aMax + 127) / 254) ∧
    ampOf cfg 127 = cfg.aMax ∧ ampOf cfg 0 = 0 ∧
    (∀ u v : Nat, u ≤ v → ampOf cfg u ≤ ampOf cfg v) ∧
    (∀ vel : Nat, ampOf cfg vel = 0 ↔ 2 * vel * cfg.aMax < 127) ∧
    (∀ vel : Nat, vel ≤ 127 → ampOf cfg vel ≤ cfg.aMax) ∧
    (cfg.aMax = 32767 → ∀ vel : Nat, vel ≤ 127 →
      ampOf cfg vel = if vel ≤ 63 then 258 * vel else 258 * vel + 1)

/-- R105, R106: the integer search for `halfPeriodOf` computes `max(1, round(SAMPLE_RATE / (2 f)))` of the real number
`f = 440 × 2^((noteId − 69) / 12)`, for every note from 0 up. -/
def Obligations.HalfPeriodIsTheRoundedRealQuotient : Prop :=
  ∀ (cfg : Config) (noteId : Nat), configInRange cfg = true → cfg.numerics = .reference →
    ((halfPeriodOf cfg noteId).toNat : ℤ) =
      max 1 ⌊(cfg.sampleRate : ℝ) / (2 * (440 * (2 : ℝ) ^ (((noteId : ℝ) - 69) / 12))) + 1 / 2⌋

/-- R106, R111 item 8, R241, at the reference rate, whatever the other parameters and the numeric functions (log 3): 1
for every note from 130 up, and never rising with the note. -/
def Obligations.HighNotesHaveHalfPeriodOne : Prop :=
  ∀ cfg : Config, cfg.sampleRate = 44100 →
    (∀ noteId : Nat, 130 ≤ noteId → halfPeriodOf cfg noteId = 1) ∧
    (∀ m n : Nat, m ≤ n → (halfPeriodOf cfg n).toNat ≤ (halfPeriodOf cfg m).toNat)

/-! ### RENDER (41_render_mixer.md) -/

/-- R120, R121: every active oscillator takes exactly one of its two branches, an inactive slot is not touched, the PCM
register fills, and nothing else changes. -/
def Obligations.RenderStepsEveryOscillator : Prop :=
  ∀ s : State, s.pcmValid = false →
    ∃ t, exec .render s = .next t ∧
      t = { s with voices := t.voices, pcmSample := t.pcmSample, pcmValid := true } ∧
      t.voices.length = s.voices.length ∧
      ∀ (i : Nat) (v : Voice), s.voices[i]? = some v →
        (v.active = false → t.voices[i]? = some v) ∧
        (v.active = true → v.samplesUntilFlip = 0 →
          t.voices[i]? = some { v with
            currentLevel := if v.currentLevel = v.targetAmplitude then -v.targetAmplitude else v.targetAmplitude
            samplesUntilFlip := v.halfPeriodSamples }) ∧
        (v.active = true → v.samplesUntilFlip ≠ 0 →
          t.voices[i]? = some { v with samplesUntilFlip := v.samplesUntilFlip - 1 } ∧
          (v.samplesUntilFlip - 1).toNat = v.samplesUntilFlip.toNat - 1)

/-- R122, R123, R127: the sample is the average of the active voices' new levels, truncated toward zero and clamped to 16
bits; silence without an active voice. -/
def Obligations.RenderMixesTheClampedAverage : Prop :=
  ∀ s : State, s.pcmValid = false →
    ∃ t, exec .render s = .next t ∧
      let levels := (t.voices.filter Voice.active).map fun v => v.currentLevel.toInt
      t.pcmSample.toInt =
        if levels = [] then 0 else max (-32768) (min 32767 (Int.tdiv levels.sum levels.length))

/-- R123, R126: in a state of the invariants the clamp never acts and the sample stays within `A_MAX`. -/
def Obligations.ClampNeverActs : Prop :=
  ∀ s : State, Inv s → s.pcmValid = false →
    ∃ t, exec .render s = .next t ∧
      let levels := (t.voices.filter Voice.active).map fun v => v.currentLevel.toInt
      t.pcmSample.toInt = Int.tdiv levels.sum levels.length ∧
      -(s.cfg.aMax : ℤ) ≤ t.pcmSample.toInt ∧ t.pcmSample.toInt ≤ s.cfg.aMax

/-- R125: slot order does not matter in RENDER. -/
def Obligations.SlotOrderDoesNotMatter : Prop :=
  ∀ (s : State) (vs : List Voice), s.pcmValid = false → s.voices.Perm vs →
    ∃ t u, exec .render s = .next t ∧ exec .render { s with voices := vs } = .next u ∧
      u.pcmSample = t.pcmSample ∧ t.voices.Perm u.voices

/-- R124: m RENDER steps after a voice's activation, whatever the other voices do: its first half-cycle has
`halfPeriodSamples` samples, every later one one more, `+A` first. Where the voice is alone, so are the m frames. -/
def Obligations.WaveformOfOneVoice : Prop :=
  ∀ (s : State) (j m : Nat) (v : Voice),
    Running s → s.rstLine = [] → s.inputs = List.replicate (2 * m) (.producer true) → s.pcmValid = false →
    s.voices[j]? = some v → v.active = true → v.currentLevel = v.targetAmplitude →
    1 ≤ v.targetAmplitude.toInt → v.samplesUntilFlip = v.halfPeriodSamples →
    let k : Nat := v.halfPeriodSamples.toNat
    let level : Nat → Word := fun n => if n / (k + 1) % 2 = 0 then v.targetAmplitude else -v.targetAmplitude
    ∃ t, runFor (2 * m) s = .next t ∧
      t.voices[j]? = some { v with
        currentLevel := level m, samplesUntilFlip := BitVec.ofNat 16 (k - m % (k + 1)) } ∧
      ((∀ (i : Nat) (w : Voice), i ≠ j → s.voices[i]? = some w → w.active = false) →
        t.frames = s.frames ++ (List.range m).map fun i => { left := level (i + 1), right := level (i + 1) })

/-- R127, X5: with no active voice every frame is silence and no voice field changes. -/
def Obligations.EmptyPoolEmitsSilence : Prop :=
  ∀ (s : State) (m : Nat),
    Running s → s.rstLine = [] → s.inputs = List.replicate (2 * m) (.producer true) → s.pcmValid = false →
    (∀ w ∈ s.voices, w.active = false) →
    ∃ t, runFor (2 * m) s = .next t ∧ t.voices = s.voices ∧
      t.frames = s.frames ++ List.replicate m { left := 0, right := 0 }

/-! ### EMIT, HOLD, RESET (42_pcm_writer.md, 70_reset_and_hazards.md) -/

/-- R143: EMIT outputs one frame, left = right = `pcm_sample`, and clears `pcm_valid`; nothing else changes. -/
def Obligations.EmitOutputsTheSampleTwice : Prop :=
  ∀ s : State, s.pcmValid = true →
    exec .emit s = .next { s with
      frames := s.frames ++ [{ left := s.pcmSample, right := s.pcmSample }], pcmValid := false }

/-- R144: HOLD is the identity. -/
def Obligations.HoldIsTheIdentity : Prop :=
  ∀ s : State, s.pcmValid = true → exec .hold s = .next s

/-- R142, R234, R236: whatever step is taken, a pending frame either stays as it is, or goes out unchanged as one frame
and the register empties, or is cleared by `rst`; and no frame goes out in any other way. -/
def Obligations.PendingFrameGoesOutUnchanged : Prop :=
  ∀ s t : State, step s = .next t →
    (s.pcmValid = true ∧ t.pcmValid = true ∧ t.pcmSample = s.pcmSample ∧ t.frames = s.frames) ∨
    (s.pcmValid = true ∧ t.pcmValid = false ∧
      t.frames = s.frames ++ [{ left := s.pcmSample, right := s.pcmSample }] ∧ t.voices = s.voices) ∨
    (rstLevel s = true ∧ t.pcmValid = false ∧ t.pcmSample = 0 ∧ t.frames = s.frames) ∨
    (s.pcmValid = false ∧ t.frames = s.frames)

/-- R230: RESET writes every slot and the PCM register and nothing else; that it leaves the host alone is the model's
reading (log 12). -/
def Obligations.ResetWritesTheBlock : Prop :=
  ∀ s : State, exec .reset s = .next { s with
    voices := List.replicate s.cfg.numVoices
      { active := false, noteId := 0, frequency := .silent, targetAmplitude := 0, currentLevel := 0,
        halfPeriodSamples := 0, samplesUntilFlip := 0 }
    pcmValid := false
    pcmSample := 0 }

/-- R27: the values the spec gives for reset. -/
def Obligations.ResetValues : Prop :=
  State.reset.voices.length = State.reset.cfg.numVoices ∧
  (∀ v ∈ State.reset.voices, v.active = false ∧ v.noteId = 0 ∧ v.frequency = .silent ∧ v.targetAmplitude = 0 ∧
    v.currentLevel = 0 ∧ v.halfPeriodSamples = 0 ∧ v.samplesUntilFlip = 0) ∧
  State.reset.pcmValid = false ∧ State.reset.pcmSample = 0 ∧ hostMode State.reset = .idle ∧
  State.reset.songValid = false ∧ State.reset.playing = false ∧ State.reset.eventIndex = 0

/-! ### The host agent (43_host_sequencer.md) -/

/-- R161, R162: a valid descriptor is loaded: the cursor at 0, `playing` cleared, the tick length from the tempo, which
is `DEFAULT_BPM` for 0 or less. (The bits of `bpm` are read as in log 6; that `millisPerTick` holds the exact value in
every build, one with float fields included, is the model's choice, log 5.) -/
def Obligations.LoadSongInstalls : Prop :=
  ∀ (s : State) (p : Nat) (c : Word) (bits : BitVec 32) (bpm : ℚ), c ≠ 0 → binary32Value bits = some bpm →
    exec (.loadSong (some p) c bits) s = .next { s with
      dataPointer := p
      eventCount := c
      millisPerTick := 60000000 / (if bpm ≤ 0 then (s.cfg.defaultBpm : ℚ) else bpm) / 1000 / s.cfg.tpqn
      eventIndex := 0
      songValid := true
      playing := false
      returns := s.returns ++ [.loaded true] }

/-- R161, R204: a null pointer or a zero event count clears the song, reports `InvalidDescriptor` and fails;
that this holds beside a `bpm` that is no number too is the model's reading (log 8). -/
def Obligations.LoadSongRejects : Prop :=
  ∀ (s : State) (p : Option Nat) (c : Word) (bits : BitVec 32), (p = none ∨ c = 0) →
    exec (.loadSong p c bits) s = .next { s with
      songValid := false
      playing := false
      diags := s.diags ++ [.invalidDescriptor]
      returns := s.returns ++ [.loaded false] }

/-- R163: `delayOf` is the exact product rounded to the nearest integer, ties away from zero, with the values given for
120 bpm. -/
def Obligations.DelayIsTheRoundedProduct : Prop :=
  ∀ cfg : Config, cfg.numerics = .reference →
    (∀ (millisPerTick : ℚ) (d : Word), 0 ≤ millisPerTick →
      (delayOf cfg millisPerTick d : ℤ) = ⌊(d.toNat : ℚ) * millisPerTick + 1 / 2⌋) ∧
    delayOf cfg (125 / 24) 0 = 0 ∧ delayOf cfg (125 / 24) 1 = 5 ∧ delayOf cfg (125 / 24) 12 = 63 ∧
    delayOf cfg (125 / 24) 24 = 125 ∧ delayOf cfg (125 / 24) 36 = 188 ∧ delayOf cfg (125 / 24) 48 = 250 ∧
    delayOf cfg (125 / 24) 96 = 500 ∧ delayOf cfg (125 / 24) 65535 = 341328

/-- R164: START schedules the record at the cursor from its big-endian `deltaTicks` and plays. (`now` is the model's own
record, log 9, here and below.) -/
def Obligations.StartSchedules : Prop :=
  ∀ (s : State) (now : Nat) (b0 b1 : Byte),
    s.now ≤ now → s.playing = false → s.songValid = true → s.eventIndex.toNat < s.eventCount.toNat →
    readByte s.stream (s.dataPointer + 6 * s.eventIndex.toNat) = some b0 →
    readByte s.stream (s.dataPointer + 6 * s.eventIndex.toNat + 1) = some b1 →
    exec (.start now) s = .next { s with
      now := now
      nextEventDueAt := now + delayOf s.cfg s.millisPerTick (BitVec.ofNat 16 (256 * b0.toNat + b1.toNat))
      playing := true }

/-- R164, R165: START is a no-op when playing, with no valid song, or with an exhausted cursor; it reads no event. (The
model's `now` alone records the call's time, log 9.) -/
def Obligations.StartDoesNothing : Prop :=
  ∀ (s : State) (now : Nat), s.now ≤ now →
    (s.playing = true ∨ s.songValid = false ∨ s.eventCount.toNat ≤ s.eventIndex.toNat) →
    exec (.start now) s = .next { s with now := now }

/-- R166: STOP clears `playing` and nothing else; every voice keeps sounding. -/
def Obligations.StopClearsPlaying : Prop :=
  ∀ s : State, exec .stop s = .next { s with playing := false }

/-- R168 (1) to (3): UPDATE's three cheap outcomes. -/
def Obligations.UpdateWithoutDispatch : Prop :=
  ∀ (s : State) (now : Nat), s.now ≤ now →
    (s.playing = false →
      exec (.update now) s = .next { s with now := now, returns := s.returns ++ [.stillPlaying false] }) ∧
    (s.playing = true → now < s.nextEventDueAt →
      exec (.update now) s = .next { s with now := now, returns := s.returns ++ [.stillPlaying true] }) ∧
    (s.playing = true → s.nextEventDueAt ≤ now → s.eventCount.toNat ≤ s.eventIndex.toNat →
      exec (.update now) s =
        .next { s with now := now, playing := false, returns := s.returns ++ [.stillPlaying false] })

/-- R168 (4) to (6), R169, R170: a due UPDATE runs the command of the record at the cursor, moves the cursor by one,
counts the next due time from its own `now`, and returns true. -/
def Obligations.UpdateDispatches : Prop :=
  ∀ (s : State) (now : Nat) (type noteId velocity : Byte),
    s.now ≤ now → s.playing = true → s.nextEventDueAt ≤ now → s.eventIndex.toNat < s.eventCount.toNat →
    readByte s.stream (s.dataPointer + 6 * s.eventIndex.toNat + 2) = some type →
    readByte s.stream (s.dataPointer + 6 * s.eventIndex.toNat + 3) = some noteId →
    readByte s.stream (s.dataPointer + 6 * s.eventIndex.toNat + 4) = some velocity →
    type = 0 ∨ type = 1 →
    ∃ u, exec (if type = 1 ∧ velocity ≠ 0 then .noteOn noteId.toNat velocity.toNat else .noteOff noteId.toNat)
        { s with now := now } = .next u ∧
      (s.eventIndex.toNat + 1 = s.eventCount.toNat →
        exec (.update now) s = .next { u with
          eventIndex := s.eventIndex + 1
          returns := s.returns ++ [.stillPlaying true] }) ∧
      ∀ b0 b1 : Byte, s.eventIndex.toNat + 1 < s.eventCount.toNat →
        readByte s.stream (s.dataPointer + 6 * (s.eventIndex.toNat + 1)) = some b0 →
        readByte s.stream (s.dataPointer + 6 * (s.eventIndex.toNat + 1) + 1) = some b1 →
        exec (.update now) s = .next { u with
          eventIndex := s.eventIndex + 1
          nextEventDueAt :=
            now + delayOf s.cfg s.millisPerTick (BitVec.ofNat 16 (256 * b0.toNat + b1.toNat))
          returns := s.returns ++ [.stillPlaying true] }

/-- R168 for EV_OFF, EV_ON_V0 and EV_ON, polled at the time last sampled (log 19): a due record runs its command, the
cursor moves by one, the next due time is set, and true is returned. -/
def Obligations.EventRecordsDispatch : Prop :=
  ∀ (s : State) (d : Word) (noteId velocity : Byte) (ev command : Instr),
    (ev, command) ∈ [(Instr.evOff d noteId, Instr.noteOff noteId.toNat),
      (.evOnV0 d noteId, .noteOff noteId.toNat), (.evOn d noteId velocity, .noteOn noteId.toNat velocity.toNat)] →
    s.playing = true → s.nextEventDueAt ≤ s.now → s.eventIndex.toNat < s.eventCount.toNat →
    ∃ u, exec command s = .next u ∧
      (s.eventIndex.toNat + 1 = s.eventCount.toNat →
        exec ev s = .next { u with
          eventIndex := s.eventIndex + 1
          returns := s.returns ++ [.stillPlaying true] }) ∧
      ∀ b0 b1 : Byte, s.eventIndex.toNat + 1 < s.eventCount.toNat →
        readByte s.stream (s.dataPointer + 6 * (s.eventIndex.toNat + 1)) = some b0 →
        readByte s.stream (s.dataPointer + 6 * (s.eventIndex.toNat + 1) + 1) = some b1 →
        exec ev s = .next { u with
          eventIndex := s.eventIndex + 1
          nextEventDueAt :=
            s.now + delayOf s.cfg s.millisPerTick (BitVec.ofNat 16 (256 * b0.toNat + b1.toNat))
          returns := s.returns ++ [.stillPlaying true] }

/-- R53, R168: UPDATE runs the event record at the cursor, as the decoder reads it, whatever its bytes 0, 1 and 5. That an event record, as
an instruction, is this poll at the sampled time is the model's choice (log 19). -/
def Obligations.UpdateRunsTheRecordAtTheCursor : Prop :=
  ∀ (s : State) (now : Nat) (b0 b1 type noteId velocity reserved : Byte) (i : Instr),
    s.now ≤ now →
    readByte s.stream (s.dataPointer + 6 * s.eventIndex.toNat + 2) = some type →
    readByte s.stream (s.dataPointer + 6 * s.eventIndex.toNat + 3) = some noteId →
    readByte s.stream (s.dataPointer + 6 * s.eventIndex.toNat + 4) = some velocity →
    decode (.event (recordOfBytes b0 b1 type noteId velocity reserved)) = .ok i →
    exec (.update now) s = exec i { s with now := now }

/-- R174: the host's state machine, every cell of its table, and the three moves of the cursor. (Beside a `bpm` that is no
number, the cell of a null or empty descriptor is the model's reading, log 8.) -/
def Obligations.HostStateMachine : Prop :=
  ∀ s t : State, HostInv s →
    (∀ p c bits, exec (.loadSong p c bits) s = .next t →
      (hostMode t = if p = none ∨ c = 0 then .idle else .loaded) ∧
      (p ≠ none → c ≠ 0 → t.eventIndex = 0) ∧ ((p = none ∨ c = 0) → t.eventIndex = s.eventIndex)) ∧
    (∀ now, exec (.start now) s = .next t →
      (hostMode t = if hostMode s = .loaded then .playing else hostMode s) ∧ t.eventIndex = s.eventIndex) ∧
    (exec .stop s = .next t →
      (hostMode t = if hostMode s = .playing then
        (if s.eventIndex = s.eventCount then .finished else .loaded) else hostMode s) ∧
      t.eventIndex = s.eventIndex) ∧
    (∀ now, exec (.update now) s = .next t →
      (hostMode t = if hostMode s = .playing ∧ s.nextEventDueAt ≤ now ∧ s.eventIndex = s.eventCount
        then .finished else hostMode s) ∧
      t.eventIndex = (if hostMode s = .playing ∧ s.nextEventDueAt ≤ now ∧ s.eventIndex ≠ s.eventCount
        then s.eventIndex + 1 else s.eventIndex) ∧
      t.returns = s.returns ++ [.stillPlaying (decide (hostMode s = .playing ∧
        ¬ (s.nextEventDueAt ≤ now ∧ s.eventIndex = s.eventCount)))])

/-- R170, R172 (a), (b): an UPDATE that dispatches is not early, dispatches one event, and counts the next due time from
its own `now`; after the last event the due time is kept. -/
def Obligations.EventsAreNeverEarly : Prop :=
  ∀ (s t : State) (now : Nat), exec (.update now) s = .next t →
    (t.voices ≠ s.voices ∨ t.eventIndex ≠ s.eventIndex) →
    s.playing = true ∧ s.nextEventDueAt ≤ now ∧ s.eventIndex.toNat < s.eventCount.toNat ∧
      t.eventIndex = s.eventIndex + 1 ∧ t.playing = true ∧
      (s.eventIndex.toNat + 1 = s.eventCount.toNat → t.nextEventDueAt = s.nextEventDueAt) ∧
      (s.eventIndex.toNat + 1 < s.eventCount.toNat → ∃ b0 b1 : Byte,
        readByte s.stream (s.dataPointer + 6 * (s.eventIndex.toNat + 1)) = some b0 ∧
        readByte s.stream (s.dataPointer + 6 * (s.eventIndex.toNat + 1) + 1) = some b1 ∧
        t.nextEventDueAt =
          now + delayOf s.cfg s.millisPerTick (BitVec.ofNat 16 (256 * b0.toNat + b1.toNat)) ∧
        (b0 = 0 → b1 = 0 → t.nextEventDueAt = now))

/-- R171: once the last event is dispatched, the next UPDATE returns false, and so does every later one, however many,
and the block is left alone. -/
def Obligations.SongEndsOnce : Prop :=
  ∀ (s : State) (now : Nat), Inv s → s.playing = true → s.eventIndex = s.eventCount → s.now ≤ now →
    ∃ t, exec (.update now) s = .next t ∧ hostMode t = .finished ∧
      t = { s with now := now, playing := false, returns := s.returns ++ [.stillPlaying false] } ∧
      ∀ later : List Nat, (now :: later).Pairwise (· ≤ ·) →
        pollAt later t = .next { t with
          now := (now :: later).getLast (List.cons_ne_nil now later)
          returns := t.returns ++ List.replicate later.length (.stillPlaying false) }

/-! ### The whole machine -/

/-- R17, R100, R160: only RENDER, EMIT and RESET write the PCM register or output a frame; of the host, only UPDATE
and its event records (instructions by log 19) reach the voice table (R173, R238); no operation of the block writes a host
register, RESET included, which is the model's reading (log 12). -/
def Obligations.WhoWritesTheBlock : Prop :=
  ∀ (i : Instr) (s t : State), exec i s = .next t →
    (i ≠ .render → i ≠ .emit → i ≠ .reset →
      t.pcmSample = s.pcmSample ∧ t.pcmValid = s.pcmValid ∧ t.frames = s.frames) ∧
    ((i = .emit ∨ i = .hold ∨ i = .stop ∨ (∃ now, i = .start now) ∨ ∃ p c b, i = .loadSong p c b) →
      t.voices = s.voices) ∧
    ((∃ n, i = .noteOff n) ∨ (∃ n, i = .noteOnV0 n) ∨ (∃ n v, i = .noteOn n v) ∨ i = .render ∨ i = .emit ∨
        i = .hold ∨ i = .reset →
      t.songValid = s.songValid ∧ t.playing = s.playing ∧ t.eventIndex = s.eventIndex ∧
      t.nextEventDueAt = s.nextEventDueAt ∧ t.millisPerTick = s.millisPerTick ∧
      t.dataPointer = s.dataPointer ∧ t.eventCount = s.eventCount ∧ t.now = s.now ∧ t.returns = s.returns)

/-- R20, R40, R200: no step writes the event stream or the configuration, and outputs are only added to. -/
def Obligations.NothingIsStoredAndOutputsOnlyGrow : Prop :=
  ∀ s t : State, step s = .next t →
    (∀ a, readByte t.stream a = readByte s.stream a) ∧ t.cfg = s.cfg ∧
    s.frames <+: t.frames ∧ s.returns <+: t.returns ∧ s.diags <+: t.diags ∧
    t.frames.length ≤ s.frames.length + 1 ∧ t.diags.length ≤ s.diags.length + 1

/-- R13, R14, R126, R171: the invariant holds in every next state of a state that has it. -/
def Obligations.StepKeepsTheInvariant : Prop :=
  ∀ s t : State, Inv s → step s = .next t → Inv t

/-- The invariant holds after reset (R14, R27; in the reference configuration, log 2). -/
def Obligations.ResetHasTheInvariant : Prop := Inv State.reset

/-- R15: two states that differ only in fields of inactive slots take steps of one kind to states that differ only
there; no frame, diagnostic or return value depends on them. -/
def Obligations.InactiveFieldsNeverShow : Prop :=
  ∀ s t : State, SameButInactive s t → AgreeingOutcomes SameButInactive (step s) (step t)

/-- R6, R104, R106, R112, R113 (b), (e), R163, R241: what is fixed of the numeric functions in every build: their ranges,
the properties of `ampOf`, `delayOf(0) = 0` and its exact value but for exact halves, and the reference integers at the
reference `A_MAX` and at the reference rate, whatever the other parameters. (Which other functions a build may use is the
model's: logs 3 and 30.) -/
def Obligations.NumericFunctionsKeepTheirRanges : Prop :=
  ∀ cfg : Config, configInRange cfg = true →
    (∀ velocity : Int, ampOf cfg (clampVelocity velocity) ≤ cfg.aMax ∧
      (127 ≤ velocity → ampOf cfg (clampVelocity velocity) = cfg.aMax) ∧
      (ampOf cfg (clampVelocity velocity) = 0 ↔ 2 * clampVelocity velocity * cfg.aMax < 127) ∧
      ∀ louder : Int, velocity ≤ louder → ampOf cfg (clampVelocity velocity) ≤ ampOf cfg (clampVelocity louder)) ∧
    (cfg.aMax = 32767 → ∀ velocity : Int,
      ampOf cfg (clampVelocity velocity) = ampOf Config.reference (clampVelocity velocity)) ∧
    (∀ noteId : Int, 1 ≤ (halfPeriodOf cfg noteId).toNat) ∧
    (cfg.sampleRate = 44100 → ∀ noteId : Nat, halfPeriodOf cfg noteId = halfPeriodOf Config.reference noteId) ∧
    (∀ millisPerTick : ℚ, delayOf cfg millisPerTick 0 = 0) ∧
    ∀ (millisPerTick : ℚ) (d : Word), 0 ≤ millisPerTick →
      (delayOf cfg millisPerTick d : ℤ) ≤ ⌊65535 * millisPerTick + 1 / 2⌋ ∧
      (delayOf cfg millisPerTick d = delayOf Config.reference millisPerTick d ∨
        Int.fract ((d.toNat : ℚ) * millisPerTick) = 1 / 2 ∧
          delayOf cfg millisPerTick d + 1 = delayOf Config.reference millisPerTick d)

/-- R24 item 3, R125: which slots the voices took never changes a sample, a diagnostic or a return value: from two states
with the same voices sounding in whatever slots, no note in two slots (R14 item 4) of 255 at most, steps of one kind lead
to two states of which all of that holds again. -/
def Obligations.SlotPlacementNeverShows : Prop :=
  ∀ s t : State, SamePools s t → AgreeingOutcomes SamePools (step s) (step t)

/-- R104, R203: with `A_MAX` of 64 or more a note-on word that is not a note-off is never rejected, in any build: it takes
a slot in silence, or finds the pool exhausted. -/
def Obligations.CommandWordsAreNotRejected : Prop :=
  ∀ (s : State) (noteId velocity : Byte), 64 ≤ s.cfg.aMax → velocity ≠ 0 →
    ∃ t, exec (.noteOn noteId.toNat velocity.toNat) s = .next t ∧
      ((t.diags = s.diags ∧ ∃ v ∈ t.voices, Sounds v noteId.toNat) ∨
        (t.diags = s.diags ++ [.voicePoolExhausted] ∧ ∀ v ∈ s.voices, v.active = true))

/-- R6, R147: `SAMPLE_RATE` enters only through `halfPeriodOf`: at another rate every instruction does the same, but for
the period and the countdown of a slot that a NOTE_ON writes. -/
def Obligations.RateEntersOnlyByTheHalfPeriod : Prop :=
  ∀ (i : Instr) (s : State) (rate : Nat),
    AgreeingOutcomes SameButPeriods (exec i s) (exec i (atRate rate s)) ∧
    ((∀ n v, i ≠ .noteOn n v) → (∀ d n v, i ≠ .evOn d n v) → (∀ now, i ≠ .update now) →
      AgreeingOutcomes (fun t u => u = atRate rate t) (exec i s) (exec i (atRate rate s)))
end

