-- ==== Sys2Proof/Laws/Decode.lean ====
section
/-! SUPPORT. Fields of words put together from their parts, and what the decoder can answer. -/

namespace Sys2Proof

@[simp] theorem commandType_commandWord (t n v r : Byte) : commandType (commandWord t n v r) = t := by
  simp only [commandType, commandWord]
  ext i hi
  simp
  grind

@[simp] theorem commandNote_commandWord (t n v r : Byte) : commandNote (commandWord t n v r) = n := by
  simp only [commandNote, commandWord]
  ext i hi
  simp
  grind

@[simp] theorem commandVelocity_commandWord (t n v r : Byte) : commandVelocity (commandWord t n v r) = v := by
  simp only [commandVelocity, commandWord]
  ext i hi
  simp
  grind

@[simp] theorem recordDelta_append (d : Word) (w : BitVec 32) : recordDelta (d ++ w) = d := by
  simp only [recordDelta]
  ext i hi
  simp
  grind

@[simp] theorem recordCommand_append (d : Word) (w : BitVec 32) : recordCommand (d ++ w) = w := by
  simp only [recordCommand]
  ext i hi
  simp
  grind

@[simp] theorem recordDelta_recordOfBytes (b0 b1 t n v r : Byte) :
    recordDelta (recordOfBytes b0 b1 t n v r) = bigEndian b0 b1 := recordDelta_append _ _

@[simp] theorem recordCommand_recordOfBytes (b0 b1 t n v r : Byte) :
    recordCommand (recordOfBytes b0 b1 t n v r) = commandWord t n v r := recordCommand_append _ _

/-- A big-endian pair as a number (R41). -/
theorem toNat_bigEndian (b0 b1 : Byte) : (bigEndian b0 b1).toNat = 256 * b0.toNat + b1.toNat := by
  have := b1.isLt
  simp only [bigEndian, BitVec.toNat_append, Nat.shiftLeft_eq]
  rw [← Nat.shiftLeft_eq, ← Nat.shiftLeft_add_eq_or_of_lt (by omega), Nat.shiftLeft_eq]
  omega

/-- An operand that fits a byte is that byte's value. -/
theorem toNat_ofInt_of_fitsByte {x : Int} (h : fitsByte x = true) : ((BitVec.ofInt 8 x).toNat : Int) = x := by
  simp only [fitsByte, Bool.and_eq_true, decide_eq_true_eq] at h
  simp only [BitVec.toNat_ofInt]
  omega

/-- Every byte's value fits a byte. -/
theorem fitsByte_toNat (b : Byte) : fitsByte (b.toNat : Int) = true := by
  have := b.isLt
  simp only [fitsByte, Bool.and_eq_true, decide_eq_true_eq]
  omega

/-- What the command decoder can answer (R62, R64). -/
theorem commandOf_cases (w : BitVec 32) :
    (commandType w = 1 ∧ commandVelocity w = 0 ∧ commandOf w = .ok (.noteOnV0 (commandNote w))) ∨
    (commandType w = 1 ∧ commandVelocity w ≠ 0 ∧ commandOf w = .ok (.noteOn (commandNote w) (commandVelocity w))) ∨
    (commandType w = 0 ∧ commandOf w = .ok (.noteOff (commandNote w))) ∨
    (commandType w ≠ 0 ∧ commandType w ≠ 1 ∧ commandOf w = .error (.reservedType (commandType w))) := by
  unfold commandOf
  split
  · next h => split <;> simp_all
  · split <;> simp_all

/-- The reserved byte is not read (R64). -/
theorem commandOf_commandWord_reserved (t n v r r' : Byte) :
    commandOf (commandWord t n v r) = commandOf (commandWord t n v r') := by simp [commandOf]

/-- The type of a command word as a number. -/
theorem toNat_commandType (w : BitVec 32) : (commandType w).toNat = w.toNat / 2 ^ 24 := by
  have := w.isLt
  simp only [commandType, BitVec.extractLsb'_toNat, Nat.shiftRight_eq_div_pow]
  omega

theorem toNat_commandNote (w : BitVec 32) : (commandNote w).toNat = w.toNat / 2 ^ 16 % 256 := by
  simp only [commandNote, BitVec.extractLsb'_toNat, Nat.shiftRight_eq_div_pow]

theorem toNat_commandVelocity (w : BitVec 32) : (commandVelocity w).toNat = w.toNat / 2 ^ 8 % 256 := by
  simp only [commandVelocity, BitVec.extractLsb'_toNat, Nat.shiftRight_eq_div_pow]

/-- The number of a command word put together from its bytes. -/
theorem toNat_commandWord (t n v r : Byte) : (commandWord t n v r).toNat =
    2 ^ 24 * t.toNat + 2 ^ 16 * n.toNat + 2 ^ 8 * v.toNat + r.toNat := by
  have ht := toNat_commandType (commandWord t n v r)
  have hn := toNat_commandNote (commandWord t n v r)
  have hv := toNat_commandVelocity (commandWord t n v r)
  have hr : (commandWord t n v r).toNat % 256 = r.toNat := by
    have : (commandWord t n v r).extractLsb' 0 8 = r := by
      simp only [commandWord]
      ext i hi
      simp
      grind
    have h' := congrArg BitVec.toNat this
    simpa [BitVec.extractLsb'_toNat] using h'
  simp only [commandType_commandWord, commandNote_commandWord, commandVelocity_commandWord] at ht hn hv
  omega

@[simp] theorem handshakeOf_pattern (valid ready : Bool) :
    handshakeOf (Machine.handshakePattern valid ready) =
      if valid then (if ready then .emit else .hold) else .render := by
  cases valid <;> cases ready <;> rfl

/-- An EV_ON that the decoder gives has a velocity other than 0; every other instruction is well formed as it is. -/
theorem decode_wellFormed {e : Encoded} {i : Instr} (h : decode e = .ok i) : i.wellFormed = true := by
  cases e with
  | event r =>
    rcases commandOf_cases (recordCommand r) with ⟨-, -, hc⟩ | ⟨-, hv, hc⟩ | ⟨-, hc⟩ | ⟨-, -, hc⟩ <;>
      simp only [decode, hc, Except.map, Command.toEvent, Except.ok.injEq, reduceCtorEq] at h <;> subst h <;>
      simp_all [Instr.wellFormed]
  | command w =>
    rcases commandOf_cases w with ⟨-, -, hc⟩ | ⟨-, -, hc⟩ | ⟨-, hc⟩ | ⟨-, -, hc⟩ <;>
      simp only [decode, hc, Except.map, Command.toInstr, Except.ok.injEq, reduceCtorEq] at h <;> subst h <;> rfl
  | handshake p => simp only [decode, handshakeOf, Except.ok.injEq] at h; subst h; split <;> [split; skip] <;> rfl
  | hostCall op args =>
    simp only [decode, callOf, Except.ok.injEq] at h
    subst h
    split <;> [skip; split <;> [skip; split]] <;> rfl
  | resetLine l => simp only [decode] at h; split at h <;> simp only [Except.ok.injEq, reduceCtorEq] at h; subst h; rfl
  | noteOnCall n v => simp only [decode, Except.ok.injEq] at h; subst h; rfl
  | noteOffCall n => simp only [decode, Except.ok.injEq] at h; subst h; rfl

end Sys2Proof
end

