-- ==== Sys2Proof/Laws/State.lean ====
section
/-! SUPPORT. One lemma per field per named update of the state, so that no later proof unfolds a record update. -/

namespace Sys2Proof.Machine

/-! ### report -/

@[simp] theorem report_cfg (d : Diagnostic) (s : State) : (report d s).cfg = s.cfg := rfl
@[simp] theorem report_launch (d : Diagnostic) (s : State) : (report d s).launch = s.launch := rfl
@[simp] theorem report_voices (d : Diagnostic) (s : State) : (report d s).voices = s.voices := rfl
@[simp] theorem report_pcmSample (d : Diagnostic) (s : State) : (report d s).pcmSample = s.pcmSample := rfl
@[simp] theorem report_pcmValid (d : Diagnostic) (s : State) : (report d s).pcmValid = s.pcmValid := rfl
@[simp] theorem report_songValid (d : Diagnostic) (s : State) : (report d s).songValid = s.songValid := rfl
@[simp] theorem report_playing (d : Diagnostic) (s : State) : (report d s).playing = s.playing := rfl
@[simp] theorem report_eventIndex (d : Diagnostic) (s : State) : (report d s).eventIndex = s.eventIndex := rfl
@[simp] theorem report_nextEventDueAt (d : Diagnostic) (s : State) :
    (report d s).nextEventDueAt = s.nextEventDueAt := rfl
@[simp] theorem report_millisPerTick (d : Diagnostic) (s : State) :
    (report d s).millisPerTick = s.millisPerTick := rfl
@[simp] theorem report_dataPointer (d : Diagnostic) (s : State) : (report d s).dataPointer = s.dataPointer := rfl
@[simp] theorem report_eventCount (d : Diagnostic) (s : State) : (report d s).eventCount = s.eventCount := rfl
@[simp] theorem report_now (d : Diagnostic) (s : State) : (report d s).now = s.now := rfl
@[simp] theorem report_stream (d : Diagnostic) (s : State) : (report d s).stream = s.stream := rfl
@[simp] theorem report_rstLine (d : Diagnostic) (s : State) : (report d s).rstLine = s.rstLine := rfl
@[simp] theorem report_inputs (d : Diagnostic) (s : State) : (report d s).inputs = s.inputs := rfl
@[simp] theorem report_readyCount (d : Diagnostic) (s : State) : (report d s).readyCount = s.readyCount := rfl
@[simp] theorem report_frames (d : Diagnostic) (s : State) : (report d s).frames = s.frames := rfl
@[simp] theorem report_diags (d : Diagnostic) (s : State) : (report d s).diags = s.diags ++ [d] := rfl
@[simp] theorem report_returns (d : Diagnostic) (s : State) : (report d s).returns = s.returns := rfl

/-! ### setVoices -/

@[simp] theorem setVoices_cfg (vs : List Voice) (s : State) : (setVoices vs s).cfg = s.cfg := rfl
@[simp] theorem setVoices_launch (vs : List Voice) (s : State) : (setVoices vs s).launch = s.launch := rfl
@[simp] theorem setVoices_voices (vs : List Voice) (s : State) : (setVoices vs s).voices = vs := rfl
@[simp] theorem setVoices_pcmSample (vs : List Voice) (s : State) : (setVoices vs s).pcmSample = s.pcmSample := rfl
@[simp] theorem setVoices_pcmValid (vs : List Voice) (s : State) : (setVoices vs s).pcmValid = s.pcmValid := rfl
@[simp] theorem setVoices_songValid (vs : List Voice) (s : State) : (setVoices vs s).songValid = s.songValid := rfl
@[simp] theorem setVoices_playing (vs : List Voice) (s : State) : (setVoices vs s).playing = s.playing := rfl
@[simp] theorem setVoices_eventIndex (vs : List Voice) (s : State) : (setVoices vs s).eventIndex = s.eventIndex := rfl
@[simp] theorem setVoices_nextEventDueAt (vs : List Voice) (s : State) :
    (setVoices vs s).nextEventDueAt = s.nextEventDueAt := rfl
@[simp] theorem setVoices_millisPerTick (vs : List Voice) (s : State) :
    (setVoices vs s).millisPerTick = s.millisPerTick := rfl
@[simp] theorem setVoices_dataPointer (vs : List Voice) (s : State) :
    (setVoices vs s).dataPointer = s.dataPointer := rfl
@[simp] theorem setVoices_eventCount (vs : List Voice) (s : State) : (setVoices vs s).eventCount = s.eventCount := rfl
@[simp] theorem setVoices_now (vs : List Voice) (s : State) : (setVoices vs s).now = s.now := rfl
@[simp] theorem setVoices_stream (vs : List Voice) (s : State) : (setVoices vs s).stream = s.stream := rfl
@[simp] theorem setVoices_rstLine (vs : List Voice) (s : State) : (setVoices vs s).rstLine = s.rstLine := rfl
@[simp] theorem setVoices_inputs (vs : List Voice) (s : State) : (setVoices vs s).inputs = s.inputs := rfl
@[simp] theorem setVoices_readyCount (vs : List Voice) (s : State) : (setVoices vs s).readyCount = s.readyCount := rfl
@[simp] theorem setVoices_frames (vs : List Voice) (s : State) : (setVoices vs s).frames = s.frames := rfl
@[simp] theorem setVoices_diags (vs : List Voice) (s : State) : (setVoices vs s).diags = s.diags := rfl
@[simp] theorem setVoices_returns (vs : List Voice) (s : State) : (setVoices vs s).returns = s.returns := rfl

/-! ### fillPcm -/

@[simp] theorem fillPcm_cfg (x : Word) (s : State) : (fillPcm x s).cfg = s.cfg := rfl
@[simp] theorem fillPcm_launch (x : Word) (s : State) : (fillPcm x s).launch = s.launch := rfl
@[simp] theorem fillPcm_voices (x : Word) (s : State) : (fillPcm x s).voices = s.voices := rfl
@[simp] theorem fillPcm_pcmSample (x : Word) (s : State) : (fillPcm x s).pcmSample = x := rfl
@[simp] theorem fillPcm_pcmValid (x : Word) (s : State) : (fillPcm x s).pcmValid = true := rfl
@[simp] theorem fillPcm_songValid (x : Word) (s : State) : (fillPcm x s).songValid = s.songValid := rfl
@[simp] theorem fillPcm_playing (x : Word) (s : State) : (fillPcm x s).playing = s.playing := rfl
@[simp] theorem fillPcm_eventIndex (x : Word) (s : State) : (fillPcm x s).eventIndex = s.eventIndex := rfl
@[simp] theorem fillPcm_nextEventDueAt (x : Word) (s : State) : (fillPcm x s).nextEventDueAt = s.nextEventDueAt := rfl
@[simp] theorem fillPcm_millisPerTick (x : Word) (s : State) : (fillPcm x s).millisPerTick = s.millisPerTick := rfl
@[simp] theorem fillPcm_dataPointer (x : Word) (s : State) : (fillPcm x s).dataPointer = s.dataPointer := rfl
@[simp] theorem fillPcm_eventCount (x : Word) (s : State) : (fillPcm x s).eventCount = s.eventCount := rfl
@[simp] theorem fillPcm_now (x : Word) (s : State) : (fillPcm x s).now = s.now := rfl
@[simp] theorem fillPcm_stream (x : Word) (s : State) : (fillPcm x s).stream = s.stream := rfl
@[simp] theorem fillPcm_rstLine (x : Word) (s : State) : (fillPcm x s).rstLine = s.rstLine := rfl
@[simp] theorem fillPcm_inputs (x : Word) (s : State) : (fillPcm x s).inputs = s.inputs := rfl
@[simp] theorem fillPcm_readyCount (x : Word) (s : State) : (fillPcm x s).readyCount = s.readyCount := rfl
@[simp] theorem fillPcm_frames (x : Word) (s : State) : (fillPcm x s).frames = s.frames := rfl
@[simp] theorem fillPcm_diags (x : Word) (s : State) : (fillPcm x s).diags = s.diags := rfl
@[simp] theorem fillPcm_returns (x : Word) (s : State) : (fillPcm x s).returns = s.returns := rfl

/-! ### outputFrame -/

@[simp] theorem outputFrame_cfg (s : State) : (outputFrame s).cfg = s.cfg := rfl
@[simp] theorem outputFrame_launch (s : State) : (outputFrame s).launch = s.launch := rfl
@[simp] theorem outputFrame_voices (s : State) : (outputFrame s).voices = s.voices := rfl
@[simp] theorem outputFrame_pcmSample (s : State) : (outputFrame s).pcmSample = s.pcmSample := rfl
@[simp] theorem outputFrame_pcmValid (s : State) : (outputFrame s).pcmValid = false := rfl
@[simp] theorem outputFrame_songValid (s : State) : (outputFrame s).songValid = s.songValid := rfl
@[simp] theorem outputFrame_playing (s : State) : (outputFrame s).playing = s.playing := rfl
@[simp] theorem outputFrame_eventIndex (s : State) : (outputFrame s).eventIndex = s.eventIndex := rfl
@[simp] theorem outputFrame_nextEventDueAt (s : State) : (outputFrame s).nextEventDueAt = s.nextEventDueAt := rfl
@[simp] theorem outputFrame_millisPerTick (s : State) : (outputFrame s).millisPerTick = s.millisPerTick := rfl
@[simp] theorem outputFrame_dataPointer (s : State) : (outputFrame s).dataPointer = s.dataPointer := rfl
@[simp] theorem outputFrame_eventCount (s : State) : (outputFrame s).eventCount = s.eventCount := rfl
@[simp] theorem outputFrame_now (s : State) : (outputFrame s).now = s.now := rfl
@[simp] theorem outputFrame_stream (s : State) : (outputFrame s).stream = s.stream := rfl
@[simp] theorem outputFrame_rstLine (s : State) : (outputFrame s).rstLine = s.rstLine := rfl
@[simp] theorem outputFrame_inputs (s : State) : (outputFrame s).inputs = s.inputs := rfl
@[simp] theorem outputFrame_readyCount (s : State) : (outputFrame s).readyCount = s.readyCount := rfl
@[simp] theorem outputFrame_frames (s : State) :
    (outputFrame s).frames = s.frames ++ [{ left := s.pcmSample, right := s.pcmSample }] := rfl
@[simp] theorem outputFrame_diags (s : State) : (outputFrame s).diags = s.diags := rfl
@[simp] theorem outputFrame_returns (s : State) : (outputFrame s).returns = s.returns := rfl

/-! ### sampleTime -/

@[simp] theorem sampleTime_cfg (t : Nat) (s : State) : (sampleTime t s).cfg = s.cfg := rfl
@[simp] theorem sampleTime_launch (t : Nat) (s : State) : (sampleTime t s).launch = s.launch := rfl
@[simp] theorem sampleTime_voices (t : Nat) (s : State) : (sampleTime t s).voices = s.voices := rfl
@[simp] theorem sampleTime_pcmSample (t : Nat) (s : State) : (sampleTime t s).pcmSample = s.pcmSample := rfl
@[simp] theorem sampleTime_pcmValid (t : Nat) (s : State) : (sampleTime t s).pcmValid = s.pcmValid := rfl
@[simp] theorem sampleTime_songValid (t : Nat) (s : State) : (sampleTime t s).songValid = s.songValid := rfl
@[simp] theorem sampleTime_playing (t : Nat) (s : State) : (sampleTime t s).playing = s.playing := rfl
@[simp] theorem sampleTime_eventIndex (t : Nat) (s : State) : (sampleTime t s).eventIndex = s.eventIndex := rfl
@[simp] theorem sampleTime_nextEventDueAt (t : Nat) (s : State) :
    (sampleTime t s).nextEventDueAt = s.nextEventDueAt := rfl
@[simp] theorem sampleTime_millisPerTick (t : Nat) (s : State) :
    (sampleTime t s).millisPerTick = s.millisPerTick := rfl
@[simp] theorem sampleTime_dataPointer (t : Nat) (s : State) : (sampleTime t s).dataPointer = s.dataPointer := rfl
@[simp] theorem sampleTime_eventCount (t : Nat) (s : State) : (sampleTime t s).eventCount = s.eventCount := rfl
@[simp] theorem sampleTime_now (t : Nat) (s : State) : (sampleTime t s).now = t := rfl
@[simp] theorem sampleTime_stream (t : Nat) (s : State) : (sampleTime t s).stream = s.stream := rfl
@[simp] theorem sampleTime_rstLine (t : Nat) (s : State) : (sampleTime t s).rstLine = s.rstLine := rfl
@[simp] theorem sampleTime_inputs (t : Nat) (s : State) : (sampleTime t s).inputs = s.inputs := rfl
@[simp] theorem sampleTime_readyCount (t : Nat) (s : State) : (sampleTime t s).readyCount = s.readyCount := rfl
@[simp] theorem sampleTime_frames (t : Nat) (s : State) : (sampleTime t s).frames = s.frames := rfl
@[simp] theorem sampleTime_diags (t : Nat) (s : State) : (sampleTime t s).diags = s.diags := rfl
@[simp] theorem sampleTime_returns (t : Nat) (s : State) : (sampleTime t s).returns = s.returns := rfl

/-! ### returnValue -/

@[simp] theorem returnValue_cfg (r : HostReturn) (s : State) : (returnValue r s).cfg = s.cfg := rfl
@[simp] theorem returnValue_launch (r : HostReturn) (s : State) : (returnValue r s).launch = s.launch := rfl
@[simp] theorem returnValue_voices (r : HostReturn) (s : State) : (returnValue r s).voices = s.voices := rfl
@[simp] theorem returnValue_pcmSample (r : HostReturn) (s : State) : (returnValue r s).pcmSample = s.pcmSample := rfl
@[simp] theorem returnValue_pcmValid (r : HostReturn) (s : State) : (returnValue r s).pcmValid = s.pcmValid := rfl
@[simp] theorem returnValue_songValid (r : HostReturn) (s : State) : (returnValue r s).songValid = s.songValid := rfl
@[simp] theorem returnValue_playing (r : HostReturn) (s : State) : (returnValue r s).playing = s.playing := rfl
@[simp] theorem returnValue_eventIndex (r : HostReturn) (s : State) :
    (returnValue r s).eventIndex = s.eventIndex := rfl
@[simp] theorem returnValue_nextEventDueAt (r : HostReturn) (s : State) :
    (returnValue r s).nextEventDueAt = s.nextEventDueAt := rfl
@[simp] theorem returnValue_millisPerTick (r : HostReturn) (s : State) :
    (returnValue r s).millisPerTick = s.millisPerTick := rfl
@[simp] theorem returnValue_dataPointer (r : HostReturn) (s : State) :
    (returnValue r s).dataPointer = s.dataPointer := rfl
@[simp] theorem returnValue_eventCount (r : HostReturn) (s : State) :
    (returnValue r s).eventCount = s.eventCount := rfl
@[simp] theorem returnValue_now (r : HostReturn) (s : State) : (returnValue r s).now = s.now := rfl
@[simp] theorem returnValue_stream (r : HostReturn) (s : State) : (returnValue r s).stream = s.stream := rfl
@[simp] theorem returnValue_rstLine (r : HostReturn) (s : State) : (returnValue r s).rstLine = s.rstLine := rfl
@[simp] theorem returnValue_inputs (r : HostReturn) (s : State) : (returnValue r s).inputs = s.inputs := rfl
@[simp] theorem returnValue_readyCount (r : HostReturn) (s : State) :
    (returnValue r s).readyCount = s.readyCount := rfl
@[simp] theorem returnValue_frames (r : HostReturn) (s : State) : (returnValue r s).frames = s.frames := rfl
@[simp] theorem returnValue_diags (r : HostReturn) (s : State) : (returnValue r s).diags = s.diags := rfl
@[simp] theorem returnValue_returns (r : HostReturn) (s : State) : (returnValue r s).returns = s.returns ++ [r] := rfl

/-! ### setPlaying -/

@[simp] theorem setPlaying_cfg (b : Bool) (s : State) : (setPlaying b s).cfg = s.cfg := rfl
@[simp] theorem setPlaying_launch (b : Bool) (s : State) : (setPlaying b s).launch = s.launch := rfl
@[simp] theorem setPlaying_voices (b : Bool) (s : State) : (setPlaying b s).voices = s.voices := rfl
@[simp] theorem setPlaying_pcmSample (b : Bool) (s : State) : (setPlaying b s).pcmSample = s.pcmSample := rfl
@[simp] theorem setPlaying_pcmValid (b : Bool) (s : State) : (setPlaying b s).pcmValid = s.pcmValid := rfl
@[simp] theorem setPlaying_songValid (b : Bool) (s : State) : (setPlaying b s).songValid = s.songValid := rfl
@[simp] theorem setPlaying_playing (b : Bool) (s : State) : (setPlaying b s).playing = b := rfl
@[simp] theorem setPlaying_eventIndex (b : Bool) (s : State) : (setPlaying b s).eventIndex = s.eventIndex := rfl
@[simp] theorem setPlaying_nextEventDueAt (b : Bool) (s : State) :
    (setPlaying b s).nextEventDueAt = s.nextEventDueAt := rfl
@[simp] theorem setPlaying_millisPerTick (b : Bool) (s : State) :
    (setPlaying b s).millisPerTick = s.millisPerTick := rfl
@[simp] theorem setPlaying_dataPointer (b : Bool) (s : State) : (setPlaying b s).dataPointer = s.dataPointer := rfl
@[simp] theorem setPlaying_eventCount (b : Bool) (s : State) : (setPlaying b s).eventCount = s.eventCount := rfl
@[simp] theorem setPlaying_now (b : Bool) (s : State) : (setPlaying b s).now = s.now := rfl
@[simp] theorem setPlaying_stream (b : Bool) (s : State) : (setPlaying b s).stream = s.stream := rfl
@[simp] theorem setPlaying_rstLine (b : Bool) (s : State) : (setPlaying b s).rstLine = s.rstLine := rfl
@[simp] theorem setPlaying_inputs (b : Bool) (s : State) : (setPlaying b s).inputs = s.inputs := rfl
@[simp] theorem setPlaying_readyCount (b : Bool) (s : State) : (setPlaying b s).readyCount = s.readyCount := rfl
@[simp] theorem setPlaying_frames (b : Bool) (s : State) : (setPlaying b s).frames = s.frames := rfl
@[simp] theorem setPlaying_diags (b : Bool) (s : State) : (setPlaying b s).diags = s.diags := rfl
@[simp] theorem setPlaying_returns (b : Bool) (s : State) : (setPlaying b s).returns = s.returns := rfl

/-! ### setDue -/

@[simp] theorem setDue_cfg (t : Nat) (s : State) : (setDue t s).cfg = s.cfg := rfl
@[simp] theorem setDue_launch (t : Nat) (s : State) : (setDue t s).launch = s.launch := rfl
@[simp] theorem setDue_voices (t : Nat) (s : State) : (setDue t s).voices = s.voices := rfl
@[simp] theorem setDue_pcmSample (t : Nat) (s : State) : (setDue t s).pcmSample = s.pcmSample := rfl
@[simp] theorem setDue_pcmValid (t : Nat) (s : State) : (setDue t s).pcmValid = s.pcmValid := rfl
@[simp] theorem setDue_songValid (t : Nat) (s : State) : (setDue t s).songValid = s.songValid := rfl
@[simp] theorem setDue_playing (t : Nat) (s : State) : (setDue t s).playing = s.playing := rfl
@[simp] theorem setDue_eventIndex (t : Nat) (s : State) : (setDue t s).eventIndex = s.eventIndex := rfl
@[simp] theorem setDue_nextEventDueAt (t : Nat) (s : State) : (setDue t s).nextEventDueAt = t := rfl
@[simp] theorem setDue_millisPerTick (t : Nat) (s : State) : (setDue t s).millisPerTick = s.millisPerTick := rfl
@[simp] theorem setDue_dataPointer (t : Nat) (s : State) : (setDue t s).dataPointer = s.dataPointer := rfl
@[simp] theorem setDue_eventCount (t : Nat) (s : State) : (setDue t s).eventCount = s.eventCount := rfl
@[simp] theorem setDue_now (t : Nat) (s : State) : (setDue t s).now = s.now := rfl
@[simp] theorem setDue_stream (t : Nat) (s : State) : (setDue t s).stream = s.stream := rfl
@[simp] theorem setDue_rstLine (t : Nat) (s : State) : (setDue t s).rstLine = s.rstLine := rfl
@[simp] theorem setDue_inputs (t : Nat) (s : State) : (setDue t s).inputs = s.inputs := rfl
@[simp] theorem setDue_readyCount (t : Nat) (s : State) : (setDue t s).readyCount = s.readyCount := rfl
@[simp] theorem setDue_frames (t : Nat) (s : State) : (setDue t s).frames = s.frames := rfl
@[simp] theorem setDue_diags (t : Nat) (s : State) : (setDue t s).diags = s.diags := rfl
@[simp] theorem setDue_returns (t : Nat) (s : State) : (setDue t s).returns = s.returns := rfl

/-! ### advanceCursor -/

@[simp] theorem advanceCursor_cfg (s : State) : (advanceCursor s).cfg = s.cfg := rfl
@[simp] theorem advanceCursor_launch (s : State) : (advanceCursor s).launch = s.launch := rfl
@[simp] theorem advanceCursor_voices (s : State) : (advanceCursor s).voices = s.voices := rfl
@[simp] theorem advanceCursor_pcmSample (s : State) : (advanceCursor s).pcmSample = s.pcmSample := rfl
@[simp] theorem advanceCursor_pcmValid (s : State) : (advanceCursor s).pcmValid = s.pcmValid := rfl
@[simp] theorem advanceCursor_songValid (s : State) : (advanceCursor s).songValid = s.songValid := rfl
@[simp] theorem advanceCursor_playing (s : State) : (advanceCursor s).playing = s.playing := rfl
@[simp] theorem advanceCursor_eventIndex (s : State) : (advanceCursor s).eventIndex = s.eventIndex + 1 := rfl
@[simp] theorem advanceCursor_nextEventDueAt (s : State) : (advanceCursor s).nextEventDueAt = s.nextEventDueAt := rfl
@[simp] theorem advanceCursor_millisPerTick (s : State) : (advanceCursor s).millisPerTick = s.millisPerTick := rfl
@[simp] theorem advanceCursor_dataPointer (s : State) : (advanceCursor s).dataPointer = s.dataPointer := rfl
@[simp] theorem advanceCursor_eventCount (s : State) : (advanceCursor s).eventCount = s.eventCount := rfl
@[simp] theorem advanceCursor_now (s : State) : (advanceCursor s).now = s.now := rfl
@[simp] theorem advanceCursor_stream (s : State) : (advanceCursor s).stream = s.stream := rfl
@[simp] theorem advanceCursor_rstLine (s : State) : (advanceCursor s).rstLine = s.rstLine := rfl
@[simp] theorem advanceCursor_inputs (s : State) : (advanceCursor s).inputs = s.inputs := rfl
@[simp] theorem advanceCursor_readyCount (s : State) : (advanceCursor s).readyCount = s.readyCount := rfl
@[simp] theorem advanceCursor_frames (s : State) : (advanceCursor s).frames = s.frames := rfl
@[simp] theorem advanceCursor_diags (s : State) : (advanceCursor s).diags = s.diags := rfl
@[simp] theorem advanceCursor_returns (s : State) : (advanceCursor s).returns = s.returns := rfl

/-! ### clearSong -/

@[simp] theorem clearSong_cfg (s : State) : (clearSong s).cfg = s.cfg := rfl
@[simp] theorem clearSong_launch (s : State) : (clearSong s).launch = s.launch := rfl
@[simp] theorem clearSong_voices (s : State) : (clearSong s).voices = s.voices := rfl
@[simp] theorem clearSong_pcmSample (s : State) : (clearSong s).pcmSample = s.pcmSample := rfl
@[simp] theorem clearSong_pcmValid (s : State) : (clearSong s).pcmValid = s.pcmValid := rfl
@[simp] theorem clearSong_songValid (s : State) : (clearSong s).songValid = false := rfl
@[simp] theorem clearSong_playing (s : State) : (clearSong s).playing = false := rfl
@[simp] theorem clearSong_eventIndex (s : State) : (clearSong s).eventIndex = s.eventIndex := rfl
@[simp] theorem clearSong_nextEventDueAt (s : State) : (clearSong s).nextEventDueAt = s.nextEventDueAt := rfl
@[simp] theorem clearSong_millisPerTick (s : State) : (clearSong s).millisPerTick = s.millisPerTick := rfl
@[simp] theorem clearSong_dataPointer (s : State) : (clearSong s).dataPointer = s.dataPointer := rfl
@[simp] theorem clearSong_eventCount (s : State) : (clearSong s).eventCount = s.eventCount := rfl
@[simp] theorem clearSong_now (s : State) : (clearSong s).now = s.now := rfl
@[simp] theorem clearSong_stream (s : State) : (clearSong s).stream = s.stream := rfl
@[simp] theorem clearSong_rstLine (s : State) : (clearSong s).rstLine = s.rstLine := rfl
@[simp] theorem clearSong_inputs (s : State) : (clearSong s).inputs = s.inputs := rfl
@[simp] theorem clearSong_readyCount (s : State) : (clearSong s).readyCount = s.readyCount := rfl
@[simp] theorem clearSong_frames (s : State) : (clearSong s).frames = s.frames := rfl
@[simp] theorem clearSong_diags (s : State) : (clearSong s).diags = s.diags := rfl
@[simp] theorem clearSong_returns (s : State) : (clearSong s).returns = s.returns := rfl

/-! ### installSong -/

@[simp] theorem installSong_cfg (p : Nat) (c : Word) (m : Rat) (s : State) : (installSong p c m s).cfg = s.cfg := rfl
@[simp] theorem installSong_launch (p : Nat) (c : Word) (m : Rat) (s : State) :
    (installSong p c m s).launch = s.launch := rfl
@[simp] theorem installSong_voices (p : Nat) (c : Word) (m : Rat) (s : State) :
    (installSong p c m s).voices = s.voices := rfl
@[simp] theorem installSong_pcmSample (p : Nat) (c : Word) (m : Rat) (s : State) :
    (installSong p c m s).pcmSample = s.pcmSample := rfl
@[simp] theorem installSong_pcmValid (p : Nat) (c : Word) (m : Rat) (s : State) :
    (installSong p c m s).pcmValid = s.pcmValid := rfl
@[simp] theorem installSong_songValid (p : Nat) (c : Word) (m : Rat) (s : State) :
    (installSong p c m s).songValid = true := rfl
@[simp] theorem installSong_playing (p : Nat) (c : Word) (m : Rat) (s : State) :
    (installSong p c m s).playing = false := rfl
@[simp] theorem installSong_eventIndex (p : Nat) (c : Word) (m : Rat) (s : State) :
    (installSong p c m s).eventIndex = 0 := rfl
@[simp] theorem installSong_nextEventDueAt (p : Nat) (c : Word) (m : Rat) (s : State) :
    (installSong p c m s).nextEventDueAt = s.nextEventDueAt := rfl
@[simp] theorem installSong_millisPerTick (p : Nat) (c : Word) (m : Rat) (s : State) :
    (installSong p c m s).millisPerTick = m := rfl
@[simp] theorem installSong_dataPointer (p : Nat) (c : Word) (m : Rat) (s : State) :
    (installSong p c m s).dataPointer = p := rfl
@[simp] theorem installSong_eventCount (p : Nat) (c : Word) (m : Rat) (s : State) :
    (installSong p c m s).eventCount = c := rfl
@[simp] theorem installSong_now (p : Nat) (c : Word) (m : Rat) (s : State) : (installSong p c m s).now = s.now := rfl
@[simp] theorem installSong_stream (p : Nat) (c : Word) (m : Rat) (s : State) :
    (installSong p c m s).stream = s.stream := rfl
@[simp] theorem installSong_rstLine (p : Nat) (c : Word) (m : Rat) (s : State) :
    (installSong p c m s).rstLine = s.rstLine := rfl
@[simp] theorem installSong_inputs (p : Nat) (c : Word) (m : Rat) (s : State) :
    (installSong p c m s).inputs = s.inputs := rfl
@[simp] theorem installSong_readyCount (p : Nat) (c : Word) (m : Rat) (s : State) :
    (installSong p c m s).readyCount = s.readyCount := rfl
@[simp] theorem installSong_frames (p : Nat) (c : Word) (m : Rat) (s : State) :
    (installSong p c m s).frames = s.frames := rfl
@[simp] theorem installSong_diags (p : Nat) (c : Word) (m : Rat) (s : State) :
    (installSong p c m s).diags = s.diags := rfl
@[simp] theorem installSong_returns (p : Nat) (c : Word) (m : Rat) (s : State) :
    (installSong p c m s).returns = s.returns := rfl

/-! ### resetBlock -/

@[simp] theorem resetBlock_cfg (s : State) : (resetBlock s).cfg = s.cfg := rfl
@[simp] theorem resetBlock_launch (s : State) : (resetBlock s).launch = s.launch := rfl
@[simp] theorem resetBlock_voices (s : State) :
    (resetBlock s).voices = List.replicate s.cfg.numVoices Voice.reset := rfl
@[simp] theorem resetBlock_pcmSample (s : State) : (resetBlock s).pcmSample = 0 := rfl
@[simp] theorem resetBlock_pcmValid (s : State) : (resetBlock s).pcmValid = false := rfl
@[simp] theorem resetBlock_songValid (s : State) : (resetBlock s).songValid = s.songValid := rfl
@[simp] theorem resetBlock_playing (s : State) : (resetBlock s).playing = s.playing := rfl
@[simp] theorem resetBlock_eventIndex (s : State) : (resetBlock s).eventIndex = s.eventIndex := rfl
@[simp] theorem resetBlock_nextEventDueAt (s : State) : (resetBlock s).nextEventDueAt = s.nextEventDueAt := rfl
@[simp] theorem resetBlock_millisPerTick (s : State) : (resetBlock s).millisPerTick = s.millisPerTick := rfl
@[simp] theorem resetBlock_dataPointer (s : State) : (resetBlock s).dataPointer = s.dataPointer := rfl
@[simp] theorem resetBlock_eventCount (s : State) : (resetBlock s).eventCount = s.eventCount := rfl
@[simp] theorem resetBlock_now (s : State) : (resetBlock s).now = s.now := rfl
@[simp] theorem resetBlock_stream (s : State) : (resetBlock s).stream = s.stream := rfl
@[simp] theorem resetBlock_rstLine (s : State) : (resetBlock s).rstLine = s.rstLine := rfl
@[simp] theorem resetBlock_inputs (s : State) : (resetBlock s).inputs = s.inputs := rfl
@[simp] theorem resetBlock_readyCount (s : State) : (resetBlock s).readyCount = s.readyCount := rfl
@[simp] theorem resetBlock_frames (s : State) : (resetBlock s).frames = s.frames := rfl
@[simp] theorem resetBlock_diags (s : State) : (resetBlock s).diags = s.diags := rfl
@[simp] theorem resetBlock_returns (s : State) : (resetBlock s).returns = s.returns := rfl

end Sys2Proof.Machine
end

