-- ==== Sys2Proof/Laws/Voices.lean ====
section
/-! SUPPORT. What the scans and the voice commands can do, once for each: `findNote`, `findFree`, `silenceNote`,
`noteOff`, `noteOn`. -/

namespace Sys2Proof.Machine

theorem plays_iff (noteId : Int) (v : Voice) : v.plays noteId = true ↔ Sounds v noteId := by
  simp [Voice.plays, Sounds]

/-! ### The scans -/

theorem findNote_none {noteId : Int} {vs : List Voice} (h : ∀ w ∈ vs, ¬ Sounds w noteId) :
    findNote noteId vs = none := by
  rw [findNote, List.findIdx?_eq_none_iff]
  intro w hw
  rw [← Bool.not_eq_true, plays_iff]
  exact h w hw

theorem findNote_some {noteId : Int} {vs : List Voice} {r : Nat} {v : Voice} (hr : vs[r]? = some v)
    (hv : Sounds v noteId) (first : ∀ (i : Nat) (w : Voice), i < r → vs[i]? = some w → ¬ Sounds w noteId) :
    findNote noteId vs = some r := by
  obtain ⟨hlt, hget⟩ := List.getElem?_eq_some_iff.mp hr
  rw [findNote, List.findIdx?_eq_some_iff_getElem]
  refine ⟨hlt, by rw [hget, plays_iff]; exact hv, fun i hi => ?_⟩
  rw [plays_iff]
  exact first i _ hi (List.getElem?_eq_getElem (by omega))

/-- The scan for a note finds nothing, or the first slot that sounds it (R102, R109). -/
theorem findNote_cases (noteId : Int) (vs : List Voice) :
    (findNote noteId vs = none ∧ ∀ w ∈ vs, ¬ Sounds w noteId) ∨
    ∃ r v, findNote noteId vs = some r ∧ vs[r]? = some v ∧ Sounds v noteId ∧
      ∀ (i : Nat) (w : Voice), i < r → vs[i]? = some w → ¬ Sounds w noteId := by
  cases hf : findNote noteId vs with
  | none =>
    left
    refine ⟨rfl, fun w hw => ?_⟩
    rw [findNote, List.findIdx?_eq_none_iff] at hf
    rw [← plays_iff, hf w hw]
    simp
  | some r =>
    right
    rw [findNote, List.findIdx?_eq_some_iff_getElem] at hf
    obtain ⟨hlt, hp, hfirst⟩ := hf
    refine ⟨r, vs[r], rfl, List.getElem?_eq_getElem hlt, (plays_iff _ _).mp hp, fun i w hi hw => ?_⟩
    obtain ⟨hlt', rfl⟩ := List.getElem?_eq_some_iff.mp hw
    rw [← plays_iff]
    exact hfirst i hi

theorem findFree_none {vs : List Voice} (h : ∀ w ∈ vs, w.active = true) : findFree vs = none := by
  rw [findFree, List.findIdx?_eq_none_iff]
  intro w hw
  simp [h w hw]

theorem findFree_some {vs : List Voice} {j : Nat} {v : Voice} (hj : vs[j]? = some v) (hv : v.active = false)
    (first : ∀ (i : Nat) (w : Voice), i < j → vs[i]? = some w → w.active = true) : findFree vs = some j := by
  obtain ⟨hlt, hget⟩ := List.getElem?_eq_some_iff.mp hj
  rw [findFree, List.findIdx?_eq_some_iff_getElem]
  refine ⟨hlt, by simp [hget, hv], fun i hi => ?_⟩
  have := first i _ hi (List.getElem?_eq_getElem (by omega))
  simp [this]

/-- The scan for a free slot finds nothing, or the lowest inactive slot (R103). -/
theorem findFree_cases (vs : List Voice) :
    (findFree vs = none ∧ ∀ w ∈ vs, w.active = true) ∨
    ∃ j v, findFree vs = some j ∧ vs[j]? = some v ∧ v.active = false ∧
      ∀ (i : Nat) (w : Voice), i < j → vs[i]? = some w → w.active = true := by
  cases hf : findFree vs with
  | none =>
    left
    refine ⟨rfl, fun w hw => ?_⟩
    rw [findFree, List.findIdx?_eq_none_iff] at hf
    simpa using hf w hw
  | some j =>
    right
    rw [findFree, List.findIdx?_eq_some_iff_getElem] at hf
    obtain ⟨hlt, hp, hfirst⟩ := hf
    refine ⟨j, vs[j], rfl, List.getElem?_eq_getElem hlt, by simpa using hp, fun i w hi hw => ?_⟩
    obtain ⟨hlt', rfl⟩ := List.getElem?_eq_some_iff.mp hw
    simpa using hfirst i hi

/-! ### Silencing a note -/

theorem modify_eq_set {α : Type} (l : List α) (i : Nat) (f : α → α) {a : α} (h : l[i]? = some a) :
    l.modify i f = l.set i (f a) := by
  apply List.ext_getElem?
  intro k
  rw [List.getElem?_modify, List.getElem?_set]
  by_cases hk : i = k
  · subst hk
    obtain ⟨hlt, rfl⟩ := List.getElem?_eq_some_iff.mp h
    simp [hlt]
  · simp [hk]

theorem silenceNote_none {noteId : Int} {vs : List Voice} (h : ∀ w ∈ vs, ¬ Sounds w noteId) :
    silenceNote noteId vs = vs := by simp [silenceNote, findNote_none h]

theorem silenceNote_some {noteId : Int} {vs : List Voice} {r : Nat} {v : Voice} (hr : vs[r]? = some v)
    (hv : Sounds v noteId) (first : ∀ (i : Nat) (w : Voice), i < r → vs[i]? = some w → ¬ Sounds w noteId) :
    silenceNote noteId vs = vs.set r v.deactivate := by
  simp [silenceNote, findNote_some hr hv first, modify_eq_set _ _ _ hr]

/-- Silencing a note changes nothing, or deactivates the first slot that sounds it (R109, R110). -/
theorem silenceNote_cases (noteId : Int) (vs : List Voice) :
    (silenceNote noteId vs = vs ∧ ∀ w ∈ vs, ¬ Sounds w noteId) ∨
    ∃ r v, vs[r]? = some v ∧ Sounds v noteId ∧ silenceNote noteId vs = vs.set r v.deactivate ∧
      ∀ (i : Nat) (w : Voice), i < r → vs[i]? = some w → ¬ Sounds w noteId := by
  rcases findNote_cases noteId vs with ⟨-, h⟩ | ⟨r, v, -, hr, hv, first⟩
  · exact .inl ⟨silenceNote_none h, h⟩
  · exact .inr ⟨r, v, hr, hv, silenceNote_some hr hv first, first⟩

@[simp] theorem length_silenceNote (noteId : Int) (vs : List Voice) :
    (silenceNote noteId vs).length = vs.length := by
  rcases silenceNote_cases noteId vs with ⟨h, -⟩ | ⟨r, v, -, -, h, -⟩ <;> simp [h]

/-- A deactivated slot sounds nothing. -/
theorem not_sounds_deactivate (v : Voice) (noteId : Int) : ¬ Sounds v.deactivate noteId := by
  simp [Sounds, Voice.deactivate]

/-! ### The note register -/

/-- The notes listed are those of the active slots (R102). -/
theorem mem_soundingNotes {vs : List Voice} {b : Byte} :
    b ∈ soundingNotes vs ↔ ∃ v ∈ vs, v.active = true ∧ v.noteId = b := by
  simp only [soundingNotes, List.mem_filter, List.mem_map, List.mem_range, List.any_eq_true, Bool.and_eq_true,
    beq_iff_eq]
  exact ⟨fun h => h.2, fun h => ⟨⟨b.toNat, b.isLt, by simp⟩, h⟩⟩

/-- Two tables in which the same notes sound list the same notes, wherever each sounds (R24 item 3). -/
theorem soundingNotes_congr {vs ws : List Voice}
    (h : ∀ b : Byte, (∃ v ∈ vs, v.active = true ∧ v.noteId = b) ↔ ∃ w ∈ ws, w.active = true ∧ w.noteId = b) :
    soundingNotes vs = soundingNotes ws := by
  apply List.filter_congr
  intro b _
  rw [Bool.eq_iff_iff]
  simpa only [List.any_eq_true, Bool.and_eq_true, beq_iff_eq] using h b

theorem nodup_soundingNotes (vs : List Voice) : (soundingNotes vs).Nodup := by
  apply List.Nodup.filter
  rw [List.nodup_map_iff_inj_on List.nodup_range]
  intro i hi j hj hij
  have := congrArg BitVec.toNat hij
  simp at this hi hj
  omega

/-- No more notes sound than there are slots. -/
theorem length_soundingNotes_le (vs : List Voice) : (soundingNotes vs).length ≤ vs.length := by
  have h : soundingNotes vs ⊆ vs.map Voice.noteId := by
    intro b hb
    obtain ⟨v, hv, -, rfl⟩ := mem_soundingNotes.mp hb
    exact List.mem_map_of_mem hv
  simpa using (List.subperm_of_subset (nodup_soundingNotes vs) h).length_le

/-- The search ends at a byte that is not listed, or has found every byte it tried listed. -/
theorem firstUnlisted_cases (listed : List Byte) (tries : Nat) (b : Byte) :
    firstUnlisted listed tries b ∉ listed ∨
    firstUnlisted listed tries b = b + BitVec.ofNat 8 tries ∧ ∀ i < tries, b + BitVec.ofNat 8 i ∈ listed := by
  induction tries generalizing b with
  | zero => exact .inr ⟨by simp [firstUnlisted], fun i hi => absurd hi (Nat.not_lt_zero i)⟩
  | succ n ih =>
    unfold firstUnlisted
    split
    · next hb =>
      rcases ih (b + 1) with h | ⟨h, hall⟩
      · exact .inl h
      · have shift : ∀ k : Nat, b + 1 + BitVec.ofNat 8 k = b + BitVec.ofNat 8 (k + 1) := by
          intro k
          rw [BitVec.ofNat_add, BitVec.add_assoc, BitVec.add_comm (1 : Byte)]
          rfl
        refine .inr ⟨by rw [h, shift], fun i hi => ?_⟩
        cases i with
        | zero => simpa using hb
        | succ k => rw [← shift]; exact hall k (by omega)
    · next hb => exact .inl hb

/-- With at most 255 bytes listed the search of 255 tries ends at one that is not. -/
theorem firstUnlisted_notMem {listed : List Byte} (h : listed.length ≤ 255) (b : Byte) :
    firstUnlisted listed 255 b ∉ listed := by
  rcases firstUnlisted_cases listed 255 b with hnot | ⟨hlast, hall⟩
  · exact hnot
  · intro hmem
    rw [hlast] at hmem
    have every : ∀ i ∈ List.range 256, b + BitVec.ofNat 8 i ∈ listed := by
      intro i hi
      rcases Nat.lt_or_ge i 255 with hlt | hge
      · exact hall i hlt
      · obtain rfl : i = 255 := by simp at hi; omega
        exact hmem
    have distinct : ((List.range 256).map fun i => b + BitVec.ofNat 8 i).Nodup := by
      rw [List.nodup_map_iff_inj_on List.nodup_range]
      intro i hi j hj hij
      have := congrArg BitVec.toNat ((BitVec.add_right_inj b).mp hij)
      simp at this hi hj
      omega
    have := (List.subperm_of_subset distinct (by
      intro x hx
      obtain ⟨i, hi, rfl⟩ := List.mem_map.mp hx
      exact every i hi)).length_le
    simp at this
    omega

/-- A note that no slot sounds is stored as a byte that no slot sounds (R14 item 4). -/
theorem noteRegister_unheld {noteId : Int} {vs : List Voice} (hlen : vs.length ≤ 255)
    (h : ∀ w ∈ vs, ¬ Sounds w noteId) : ∀ w ∈ vs, w.active = true → w.noteId ≠ noteRegister noteId vs := by
  intro w hw hactive heq
  unfold noteRegister at heq
  split at heq
  · next hfits => exact h w hw ⟨hactive, by rw [heq]; exact toNat_ofInt_of_fitsByte hfits⟩
  · apply firstUnlisted_notMem ((length_soundingNotes_le vs).trans hlen)
    rw [← heq]
    exact mem_soundingNotes.mpr ⟨w, hw, hactive, rfl⟩

/-! ### NOTE_ON -/

/-- What NOTE_ON can do (R101): drop, reject, or activate the lowest free slot; each after the note was silenced. -/
theorem noteOn_cases (noteId velocity : Int) (s : State) :
    (noteOn noteId velocity s = report .voicePoolExhausted (noteOff noteId s) ∧
      ∀ w ∈ silenceNote noteId s.voices, w.active = true) ∨
    (∃ j w, (silenceNote noteId s.voices)[j]? = some w ∧ w.active = false ∧
      (∀ (i : Nat) (u : Voice), i < j → (silenceNote noteId s.voices)[i]? = some u → u.active = true) ∧
      (((freqOf s.cfg noteId).isNonPositive = true ∨ ampOf s.cfg (clampVelocity velocity) = 0) ∧
          noteOn noteId velocity s = report .invalidNoteParameters (noteOff noteId s) ∨
        (freqOf s.cfg noteId).isNonPositive = false ∧ ampOf s.cfg (clampVelocity velocity) ≠ 0 ∧
          noteOn noteId velocity s = setVoices ((silenceNote noteId s.voices).set j
            (newVoice s.cfg (silenceNote noteId s.voices) noteId (ampOf s.cfg (clampVelocity velocity)))) s)) := by
  rcases findFree_cases (silenceNote noteId s.voices) with ⟨hf, hall⟩ | ⟨j, w, hf, hj, hw, first⟩
  · left
    refine ⟨?_, hall⟩
    simp [noteOn, noteOff, hf]
  · right
    refine ⟨j, w, hj, hw, first, ?_⟩
    by_cases hrej : (freqOf s.cfg noteId).isNonPositive = true ∨ ampOf s.cfg (clampVelocity velocity) = 0
    · left
      refine ⟨hrej, ?_⟩
      simp only [noteOn, noteOff, setVoices_voices, hf]
      rw [if_pos (by simpa using hrej)]
    · right
      rw [not_or] at hrej
      refine ⟨by simpa using hrej.1, hrej.2, ?_⟩
      simp only [noteOn, noteOff, setVoices_voices, hf]
      rw [if_neg (by simpa using hrej)]
      rfl

end Sys2Proof.Machine
end

