-- ==== Sys2Proof/Laws/HostAgent.lean ====
section
/-! SUPPORT. What the host's shared operations can do, once for each: `poll`, `reschedule`, `processEvent`,
`processRecord`. -/

namespace Sys2Proof.Machine

/-- UPDATE's three tests (R168): each outcome with the condition that leads to it. -/
theorem poll_cases (event : State → Host.Outcome State Fault Refusal) (s : State) :
    (s.playing = false ∧ poll event s = .next (returnValue (.stillPlaying false) s)) ∨
    (s.playing = true ∧ s.now < s.nextEventDueAt ∧ poll event s = .next (returnValue (.stillPlaying true) s)) ∨
    (s.playing = true ∧ s.nextEventDueAt ≤ s.now ∧ s.eventCount ≤ s.eventIndex ∧
      poll event s = .next (returnValue (.stillPlaying false) (setPlaying false s))) ∨
    (s.playing = true ∧ s.nextEventDueAt ≤ s.now ∧ s.eventIndex < s.eventCount ∧ poll event s = event s) := by
  unfold poll
  cases hp : s.playing
  · simp
  · by_cases hd : s.now < s.nextEventDueAt
    · simp [hd]
    · by_cases hc : s.eventCount ≤ s.eventIndex
      · simp [hd, hc]
        omega
      · have : s.eventIndex < s.eventCount := by simpa using hc
        simp [hd, hc, this]
        omega

/-- R168 (6): no next event, a next event read and scheduled, or a stream that ends too early. -/
theorem reschedule_cases (s : State) :
    (s.eventCount ≤ s.eventIndex ∧ reschedule s = .next (returnValue (.stillPlaying true) s)) ∨
    (s.eventIndex < s.eventCount ∧ ∃ d, readDelta s s.eventIndex.toNat = some d ∧
      reschedule s = .next (returnValue (.stillPlaying true)
        (setDue (s.now + delayOf s.cfg s.millisPerTick d) s))) ∨
    (s.eventIndex < s.eventCount ∧ readDelta s s.eventIndex.toNat = none ∧
      reschedule s = .fault (.eventStreamUnreadable s.eventIndex.toNat)) := by
  unfold reschedule
  by_cases h : s.eventIndex < s.eventCount
  · rw [if_pos h]
    cases hd : readDelta s s.eventIndex.toNat with
    | none => exact .inr (.inr ⟨h, rfl, rfl⟩)
    | some d => exact .inr (.inl ⟨h, d, rfl, rfl⟩)
  · rw [if_neg h]
    exact .inl ⟨by simpa using h, rfl⟩

/-- R168 (4): the record is unreadable, reserved, or its command runs. -/
theorem processRecord_cases (s : State) :
    (readCommand s s.eventIndex.toNat = none ∧
      processRecord s = .fault (.eventStreamUnreadable s.eventIndex.toNat)) ∨
    (∃ w e, readCommand s s.eventIndex.toNat = some w ∧ commandOf w = .error e ∧
      processRecord s = .refused (.undecodable e)) ∨
    (∃ w c, readCommand s s.eventIndex.toNat = some w ∧ commandOf w = .ok c ∧
      processRecord s = processEvent (runCommand c) s) := by
  unfold processRecord
  cases hw : readCommand s s.eventIndex.toNat with
  | none => exact .inl ⟨rfl, rfl⟩
  | some w =>
    cases hc : commandOf w with
    | error e => exact .inr (.inl ⟨w, e, rfl, hc, by simp [hc]⟩)
    | ok c => exact .inr (.inr ⟨w, c, rfl, hc, by simp [hc]⟩)

/-- A field read depends on the stream and the song's address only (R51). -/
theorem readDelta_congr {s t : State} (h : s.stream = t.stream) (hp : s.dataPointer = t.dataPointer) (k : Nat) :
    readDelta s k = readDelta t k := by simp [readDelta, recordBase, h, hp]

theorem readCommand_congr {s t : State} (h : s.stream = t.stream) (hp : s.dataPointer = t.dataPointer) (k : Nat) :
    readCommand s k = readCommand t k := by simp [readCommand, recordBase, h, hp]

/-! ### What the commands leave alone -/

/-- NOTE_ON writes the voice table and the diagnostics and nothing else (R101). -/
theorem noteOn_frame (noteId velocity : Int) (s : State) : noteOn noteId velocity s =
    { s with voices := (noteOn noteId velocity s).voices, diags := (noteOn noteId velocity s).diags } := by
  rcases noteOn_cases noteId velocity s with ⟨h, -⟩ | ⟨j, u, -, -, -, ⟨-, h⟩ | ⟨-, -, h⟩⟩ <;> rw [h] <;> rfl

/-- A dispatched command writes the voice table and the diagnostics and nothing else (R100). -/
theorem runCommand_frame (c : Command) (s : State) : runCommand c s =
    { s with voices := (runCommand c s).voices, diags := (runCommand c s).diags } := by
  cases c with
  | noteOff n => rfl
  | noteOnV0 n => rfl
  | noteOn n v => exact noteOn_frame n.toNat v.toNat s

end Sys2Proof.Machine
end

