-- ==== Sys2Proof/Laws/Frames.lean ====
section
/-! SUPPORT. The fields that the voice commands leave alone, one lemma each. -/

namespace Sys2Proof.Machine

@[simp] theorem noteOff_cfg (n : Int) (s : State) : (noteOff n s).cfg = s.cfg := rfl
@[simp] theorem noteOff_launch (n : Int) (s : State) : (noteOff n s).launch = s.launch := rfl
@[simp] theorem noteOff_pcmSample (n : Int) (s : State) : (noteOff n s).pcmSample = s.pcmSample := rfl
@[simp] theorem noteOff_pcmValid (n : Int) (s : State) : (noteOff n s).pcmValid = s.pcmValid := rfl
@[simp] theorem noteOff_songValid (n : Int) (s : State) : (noteOff n s).songValid = s.songValid := rfl
@[simp] theorem noteOff_playing (n : Int) (s : State) : (noteOff n s).playing = s.playing := rfl
@[simp] theorem noteOff_eventIndex (n : Int) (s : State) : (noteOff n s).eventIndex = s.eventIndex := rfl
@[simp] theorem noteOff_nextEventDueAt (n : Int) (s : State) : (noteOff n s).nextEventDueAt = s.nextEventDueAt := rfl
@[simp] theorem noteOff_millisPerTick (n : Int) (s : State) : (noteOff n s).millisPerTick = s.millisPerTick := rfl
@[simp] theorem noteOff_dataPointer (n : Int) (s : State) : (noteOff n s).dataPointer = s.dataPointer := rfl
@[simp] theorem noteOff_eventCount (n : Int) (s : State) : (noteOff n s).eventCount = s.eventCount := rfl
@[simp] theorem noteOff_now (n : Int) (s : State) : (noteOff n s).now = s.now := rfl
@[simp] theorem noteOff_stream (n : Int) (s : State) : (noteOff n s).stream = s.stream := rfl
@[simp] theorem noteOff_rstLine (n : Int) (s : State) : (noteOff n s).rstLine = s.rstLine := rfl
@[simp] theorem noteOff_inputs (n : Int) (s : State) : (noteOff n s).inputs = s.inputs := rfl
@[simp] theorem noteOff_readyCount (n : Int) (s : State) : (noteOff n s).readyCount = s.readyCount := rfl
@[simp] theorem noteOff_frames (n : Int) (s : State) : (noteOff n s).frames = s.frames := rfl
@[simp] theorem noteOff_returns (n : Int) (s : State) : (noteOff n s).returns = s.returns := rfl
@[simp] theorem noteOff_diags (n : Int) (s : State) : (noteOff n s).diags = s.diags := rfl

@[simp] theorem noteOff_voices (n : Int) (s : State) : (noteOff n s).voices = silenceNote n s.voices := rfl

@[simp] theorem noteOn_cfg (n v : Int) (s : State) : (noteOn n v s).cfg = s.cfg := by
  rw [noteOn_frame]
@[simp] theorem noteOn_launch (n v : Int) (s : State) : (noteOn n v s).launch = s.launch := by
  rw [noteOn_frame]
@[simp] theorem noteOn_pcmSample (n v : Int) (s : State) : (noteOn n v s).pcmSample = s.pcmSample := by
  rw [noteOn_frame]
@[simp] theorem noteOn_pcmValid (n v : Int) (s : State) : (noteOn n v s).pcmValid = s.pcmValid := by
  rw [noteOn_frame]
@[simp] theorem noteOn_songValid (n v : Int) (s : State) : (noteOn n v s).songValid = s.songValid := by
  rw [noteOn_frame]
@[simp] theorem noteOn_playing (n v : Int) (s : State) : (noteOn n v s).playing = s.playing := by
  rw [noteOn_frame]
@[simp] theorem noteOn_eventIndex (n v : Int) (s : State) : (noteOn n v s).eventIndex = s.eventIndex := by
  rw [noteOn_frame]
@[simp] theorem noteOn_nextEventDueAt (n v : Int) (s : State) : (noteOn n v s).nextEventDueAt = s.nextEventDueAt := by
  rw [noteOn_frame]
@[simp] theorem noteOn_millisPerTick (n v : Int) (s : State) : (noteOn n v s).millisPerTick = s.millisPerTick := by
  rw [noteOn_frame]
@[simp] theorem noteOn_dataPointer (n v : Int) (s : State) : (noteOn n v s).dataPointer = s.dataPointer := by
  rw [noteOn_frame]
@[simp] theorem noteOn_eventCount (n v : Int) (s : State) : (noteOn n v s).eventCount = s.eventCount := by
  rw [noteOn_frame]
@[simp] theorem noteOn_now (n v : Int) (s : State) : (noteOn n v s).now = s.now := by
  rw [noteOn_frame]
@[simp] theorem noteOn_stream (n v : Int) (s : State) : (noteOn n v s).stream = s.stream := by
  rw [noteOn_frame]
@[simp] theorem noteOn_rstLine (n v : Int) (s : State) : (noteOn n v s).rstLine = s.rstLine := by
  rw [noteOn_frame]
@[simp] theorem noteOn_inputs (n v : Int) (s : State) : (noteOn n v s).inputs = s.inputs := by
  rw [noteOn_frame]
@[simp] theorem noteOn_readyCount (n v : Int) (s : State) : (noteOn n v s).readyCount = s.readyCount := by
  rw [noteOn_frame]
@[simp] theorem noteOn_frames (n v : Int) (s : State) : (noteOn n v s).frames = s.frames := by
  rw [noteOn_frame]
@[simp] theorem noteOn_returns (n v : Int) (s : State) : (noteOn n v s).returns = s.returns := by
  rw [noteOn_frame]

@[simp] theorem runCommand_cfg (c : Command) (s : State) : (runCommand c s).cfg = s.cfg := by
  rw [runCommand_frame]
@[simp] theorem runCommand_launch (c : Command) (s : State) : (runCommand c s).launch = s.launch := by
  rw [runCommand_frame]
@[simp] theorem runCommand_pcmSample (c : Command) (s : State) : (runCommand c s).pcmSample = s.pcmSample := by
  rw [runCommand_frame]
@[simp] theorem runCommand_pcmValid (c : Command) (s : State) : (runCommand c s).pcmValid = s.pcmValid := by
  rw [runCommand_frame]
@[simp] theorem runCommand_songValid (c : Command) (s : State) : (runCommand c s).songValid = s.songValid := by
  rw [runCommand_frame]
@[simp] theorem runCommand_playing (c : Command) (s : State) : (runCommand c s).playing = s.playing := by
  rw [runCommand_frame]
@[simp] theorem runCommand_eventIndex (c : Command) (s : State) : (runCommand c s).eventIndex = s.eventIndex := by
  rw [runCommand_frame]
@[simp] theorem runCommand_nextEventDueAt (c : Command) (s : State) : (runCommand c s).nextEventDueAt = s.nextEventDueAt := by
  rw [runCommand_frame]
@[simp] theorem runCommand_millisPerTick (c : Command) (s : State) : (runCommand c s).millisPerTick = s.millisPerTick := by
  rw [runCommand_frame]
@[simp] theorem runCommand_dataPointer (c : Command) (s : State) : (runCommand c s).dataPointer = s.dataPointer := by
  rw [runCommand_frame]
@[simp] theorem runCommand_eventCount (c : Command) (s : State) : (runCommand c s).eventCount = s.eventCount := by
  rw [runCommand_frame]
@[simp] theorem runCommand_now (c : Command) (s : State) : (runCommand c s).now = s.now := by
  rw [runCommand_frame]
@[simp] theorem runCommand_stream (c : Command) (s : State) : (runCommand c s).stream = s.stream := by
  rw [runCommand_frame]
@[simp] theorem runCommand_rstLine (c : Command) (s : State) : (runCommand c s).rstLine = s.rstLine := by
  rw [runCommand_frame]
@[simp] theorem runCommand_inputs (c : Command) (s : State) : (runCommand c s).inputs = s.inputs := by
  rw [runCommand_frame]
@[simp] theorem runCommand_readyCount (c : Command) (s : State) : (runCommand c s).readyCount = s.readyCount := by
  rw [runCommand_frame]
@[simp] theorem runCommand_frames (c : Command) (s : State) : (runCommand c s).frames = s.frames := by
  rw [runCommand_frame]
@[simp] theorem runCommand_returns (c : Command) (s : State) : (runCommand c s).returns = s.returns := by
  rw [runCommand_frame]

end Sys2Proof.Machine
end

