-- ==== Sys2Proof/Laws/Memory.lean ====
section
/-! SUPPORT. The event stream: reading after writing, and the canonical form is kept. -/

namespace Sys2Proof.Machine

theorem readByte_writeByte_same (m : Memory) (a : Nat) (b : Byte) : readByte (writeByte m a b) a = some b := by
  induction m with
  | nil => simp [writeByte, readByte]
  | cons cell rest ih =>
    obtain ⟨x, c⟩ := cell
    unfold writeByte
    split
    · simp [readByte]
    · split
      · simp_all [readByte]
      · simp_all [readByte, eq_comm]

theorem readByte_writeByte_other (m : Memory) {a a' : Nat} (b : Byte) (h : a' ≠ a) :
    readByte (writeByte m a b) a' = readByte m a' := by
  induction m with
  | nil => simp [writeByte, readByte, h.symm]
  | cons cell rest ih =>
    obtain ⟨x, c⟩ := cell
    unfold writeByte
    split
    · simp [readByte, h.symm]
    · split
      · next hx => subst hx; simp [readByte, h.symm]
      · simp [readByte, ih]

theorem risesFrom_writeByte (m : Memory) (a : Nat) (b : Byte) (bound : Nat) (hb : bound ≤ a)
    (h : Memory.risesFrom bound m = true) : Memory.risesFrom bound (writeByte m a b) = true := by
  induction m generalizing bound with
  | nil => simpa [writeByte, Memory.risesFrom] using hb
  | cons cell rest ih =>
    obtain ⟨x, c⟩ := cell
    simp only [Memory.risesFrom, Bool.and_eq_true, decide_eq_true_eq] at h
    unfold writeByte
    split
    · next hx => simp only [Memory.risesFrom, Bool.and_eq_true, decide_eq_true_eq]; exact ⟨hb, hx, h.2⟩
    · next hx =>
      split
      · simp [Memory.risesFrom, h]
      · next hne => simp [Memory.risesFrom, h.1, ih (x + 1) (by omega) h.2]

/-- A write keeps the canonical form. -/
theorem writeByte_wf (m : Memory) (a : Nat) (b : Byte) (h : m.wf = true) : (writeByte m a b).wf = true :=
  risesFrom_writeByte m a b 0 (Nat.zero_le a) h

theorem writeBytes_wf (m : Memory) (a : Nat) (bs : List Byte) (h : m.wf = true) : (writeBytes m a bs).wf = true := by
  induction bs generalizing m a with
  | nil => exact h
  | cons b rest ih => exact ih _ _ (writeByte_wf m a b h)

theorem reset_stream_wf : Memory.wf State.reset.stream = true := rfl

end Sys2Proof.Machine
end

