-- ==== Sys2Proof/Laws/Numerics.lean ====
section
/-! SUPPORT. What the shared numeric operations compute, once for each. -/

namespace Sys2Proof.Machine

/-- `round` of a quotient is the floor of the quotient plus one half (R7). -/
theorem roundDiv_floor (num den : Nat) : (roundDiv num den : ℤ) = ⌊(num : ℚ) / den + 1 / 2⌋ := by
  rcases Nat.eq_zero_or_pos den with rfl | hd
  · norm_num [roundDiv]
  · have : (num : ℚ) / den + 1 / 2 = ((2 * num + den : ℕ) : ℚ) / ((2 * den : ℕ) : ℚ) := by
      push_cast
      field_simp
    rw [this, roundDiv, Rat.floor_natCast_div_natCast]
    norm_cast

/-- `round` of a number from 0 up is the floor of the number plus one half (R7). -/
theorem roundRat_floor {x : ℚ} (h : 0 ≤ x) : (roundRat x : ℤ) = ⌊x + 1 / 2⌋ := by
  have hnum : ((x.num.toNat : ℕ) : ℚ) = (x.num : ℚ) := by
    have := Int.toNat_of_nonneg (Rat.num_nonneg.2 h)
    exact_mod_cast this
  rw [roundRat, roundDiv_floor, hnum, Rat.num_div_den]

/-- `clamp` between bounds that are in order (R7). -/
theorem clamp_eq {lo hi : Int} (h : lo ≤ hi) (x : Int) : clamp x lo hi = max lo (min hi x) := by
  unfold clamp
  split <;> [skip; split] <;> omega

/-- `sdiv_trunc` is division rounded toward zero (R7). -/
theorem sdivTrunc_eq_tdiv (a : Int) (b : Nat) : sdivTrunc a b = Int.tdiv a b := by
  unfold sdivTrunc
  split
  · next h => rw [Int.tdiv_eq_ediv_of_nonneg h]
  · next h =>
    rw [show a = -(-a) by ring, Int.neg_tdiv, Int.tdiv_eq_ediv_of_nonneg (by omega)]
    simp

/-- The search ends at the last number for which a downward closed property holds. -/
theorem greatestBelow_spec {p : Nat → Bool} (bits : Nat) {k : Nat} (hk : p k = true) (hb : p (k + 2 ^ bits) = false) :
    p (greatestBelow p bits k) = true ∧ p (greatestBelow p bits k + 1) = false ∧
      k ≤ greatestBelow p bits k ∧ greatestBelow p bits k < k + 2 ^ bits := by
  induction bits generalizing k with
  | zero => exact ⟨hk, hb, le_refl k, by simp [greatestBelow]⟩
  | succ n ih =>
    have e : 2 ^ (n + 1) = 2 ^ n + 2 ^ n := by rw [pow_succ]; ring
    unfold greatestBelow
    split
    · next h =>
      obtain ⟨h1, h2, h3, h4⟩ := ih h (by rw [← hb, e, Nat.add_assoc])
      exact ⟨h1, h2, by omega, by omega⟩
    · next h =>
      obtain ⟨h1, h2, h3, h4⟩ := ih hk (by simpa using h)
      exact ⟨h1, h2, h3, by omega⟩

/-- A longer half-period is reached only if a shorter one is. -/
theorem halfPeriodAtLeast_anti {sampleRate : Nat} {noteId : Int} {a b : Nat} (h : a ≤ b)
    (hb : halfPeriodAtLeast sampleRate noteId b = true) : halfPeriodAtLeast sampleRate noteId a = true := by
  simp only [halfPeriodAtLeast, decide_eq_true_eq] at *
  refine le_trans ?_ hb
  gcongr

/-- The running maximum never falls. -/
theorem runningMax_mono (f : Nat → Nat) : Monotone (runningMax f) :=
  monotone_nat_of_le_succ fun _ => le_max_left _ _

/-- Rounding one way or the other at an exact half: the rounded number, or one less, and that at a half only. -/
theorem roundHalf_cases (halfUp : Bool) (x : Rat) :
    roundHalf halfUp x = roundRat x ∨ x.den = 2 ∧ roundHalf halfUp x = roundRat x - 1 := by
  unfold roundHalf
  split
  · next h =>
    simp only [Bool.and_eq_true, decide_eq_true_eq] at h
    exact .inr ⟨h.1, rfl⟩
  · exact .inl rfl

end Sys2Proof.Machine
end

