-- ==== Sys2Proof/Laws/Mixer.lean ====
section
/-! SUPPORT. What the oscillator step and the mixer's two sums are, once for each. -/

namespace Sys2Proof.Machine

/-- An inactive slot is not touched (R120). -/
theorem oscillate_inactive {v : Voice} (h : v.active = false) : oscillate v = v := by simp [oscillate, h]

/-- The oscillator step of an active slot: it flips and starts the next countdown, or counts down (R121). -/
theorem oscillate_cases {v : Voice} (h : v.active = true) :
    (v.samplesUntilFlip = 0 ∧ oscillate v =
      { v with
        currentLevel := if v.currentLevel = v.targetAmplitude then -v.targetAmplitude else v.targetAmplitude
        samplesUntilFlip := v.halfPeriodSamples }) ∨
    (v.samplesUntilFlip ≠ 0 ∧ oscillate v = { v with samplesUntilFlip := v.samplesUntilFlip - 1 }) := by
  by_cases h0 : v.samplesUntilFlip = 0
  · exact .inl ⟨h0, by simp [oscillate, h, h0]⟩
  · exact .inr ⟨h0, by simp only [oscillate, h, if_true, if_neg h0]⟩

@[simp] theorem oscillate_active (v : Voice) : (oscillate v).active = v.active := by
  unfold oscillate
  split <;> [split; skip] <;> rfl

@[simp] theorem oscillate_noteId (v : Voice) : (oscillate v).noteId = v.noteId := by
  unfold oscillate
  split <;> [split; skip] <;> rfl

/-- The sum runs over the active voices (R122). -/
theorem mixSum_eq (vs : List Voice) :
    mixSum vs = ((vs.filter Voice.active).map fun v => v.currentLevel.toInt).sum := by
  induction vs with
  | nil => rfl
  | cons v vs ih =>
    simp only [mixSum, List.map_cons, List.sum_cons, Voice.contribution] at *
    rw [ih]
    cases h : v.active <;> simp [h]

/-- The count is how many voices are active (R122). -/
theorem activeCount_eq (vs : List Voice) : activeCount vs = (vs.filter Voice.active).length := by
  simp [activeCount, List.countP_eq_length_filter]

end Sys2Proof.Machine
end

