-- ==== Sys2Proof/Laws/PerInstr.lean ====
section
/-! SUPPORT. A statement about every instruction as syntax: the encoder writes 0 in the reserved byte (R64, R73). -/

namespace Sys2Proof.Laws.ReservedByteZero

/-- The reserved byte of the two formats that have one (R60, R61). -/
def reservedByte : Encoded → Option Byte
  | .command w => some (w.extractLsb' 0 8)
  | .event r => some (r.extractLsb' 0 8)
  | .noteOnCall _ _ | .noteOffCall _ | .handshake _ | .resetLine _ | .hostCall _ _ => none

/-- The encoder writes 0 in the reserved byte, where the form has one. -/
def Statement (i : Instr) : Prop := ∀ b, reservedByte (encode i) = some b → b = 0

theorem low_commandWord (t n v : Byte) : (commandWord t n v 0).extractLsb' 0 8 = 0 := by
  simp only [commandWord]
  ext i hi
  simp
  grind

theorem low_record (d : Word) (t n v : Byte) : (d ++ commandWord t n v 0).extractLsb' 0 8 = 0 := by
  simp only [commandWord]
  ext i hi
  simp
  grind

theorem of_command (t n v b : Byte) (h : reservedByte (.command (commandWord t n v 0)) = some b) : b = 0 := by
  rw [reservedByte, low_commandWord] at h
  exact (Option.some.inj h).symm

theorem of_event (d : Word) (t n v b : Byte) (h : reservedByte (.event (d ++ commandWord t n v 0)) = some b) :
    b = 0 := by
  rw [reservedByte, low_record] at h
  exact (Option.some.inj h).symm

theorem noteOff (noteId : Int) : Statement (.noteOff noteId) := by
  intro b h
  simp only [encode] at h
  split at h
  · exact of_command _ _ _ b h
  · cases h

theorem noteOnV0 (noteId : Byte) : Statement (.noteOnV0 noteId) := fun b h => of_command _ _ _ b h

theorem noteOn (noteId velocity : Int) : Statement (.noteOn noteId velocity) := by
  intro b h
  simp only [encode] at h
  split at h
  · exact of_command _ _ _ b h
  · cases h

theorem render : Statement .render := fun _ h => nomatch h
theorem emit : Statement .emit := fun _ h => nomatch h
theorem hold : Statement .hold := fun _ h => nomatch h
theorem reset : Statement .reset := fun _ h => nomatch h

theorem evOff (deltaTicks : Word) (noteId : Byte) : Statement (.evOff deltaTicks noteId) :=
  fun b h => of_event _ _ _ _ b h

theorem evOnV0 (deltaTicks : Word) (noteId : Byte) : Statement (.evOnV0 deltaTicks noteId) :=
  fun b h => of_event _ _ _ _ b h

theorem evOn (deltaTicks : Word) (noteId velocity : Byte) : Statement (.evOn deltaTicks noteId velocity) :=
  fun b h => of_event _ _ _ _ b h

theorem loadSong (dataPointer : Option Nat) (eventCount : Word) (bpm : BitVec 32) :
    Statement (.loadSong dataPointer eventCount bpm) := fun _ h => nomatch h

theorem start (now : Nat) : Statement (.start now) := fun _ h => nomatch h
theorem stop : Statement .stop := fun _ h => nomatch h
theorem update (now : Nat) : Statement (.update now) := fun _ h => nomatch h

end Sys2Proof.Laws.ReservedByteZero
end

