-- ==== Sys2Proof/Laws/Step.lean ====
section
/-! SUPPORT. What selects a step and what a step can do, once. -/

namespace Sys2Proof.Machine

/-! ### Selection -/

theorem fetch_reset {s : State} {rest : List Bool} (h : s.rstLine = true :: rest) :
    fetch s = (.resetLine 1, { s with rstLine := rest }) := by
  unfold fetch
  rw [h]

theorem fetch_low {s : State} (h : rstLevel s = false) :
    fetch s =
      match s.inputs with
      | i :: rest => (i.encoded s.pcmValid, { s with rstLine := s.rstLine.tail, inputs := rest })
      | [] =>
        if s.pcmValid then
          (.handshake (handshakePattern true (Config.freePcmReady s.readyCount)),
            { s with rstLine := s.rstLine.tail, readyCount := s.readyCount + 1 })
        else (.handshake (handshakePattern false false), { s with rstLine := s.rstLine.tail }) := by
  unfold rstLevel at h
  unfold fetch
  split
  · next rest h' => simp [h'] at h
  · rfl

theorem fetch_input {s : State} {i : Input} {rest : List Input} (h : rstLevel s = false) (hi : s.inputs = i :: rest) :
    fetch s = (i.encoded s.pcmValid, { s with rstLine := s.rstLine.tail, inputs := rest }) := by
  rw [fetch_low h, hi]

/-- Taking the inputs of a step changes only what they are queued in. -/
theorem fetch_state (s : State) : (fetch s).2 =
    { s with rstLine := (fetch s).2.rstLine, inputs := (fetch s).2.inputs, readyCount := (fetch s).2.readyCount } := by
  unfold fetch
  split
  · rfl
  · split
    · rfl
    · split <;> rfl

/-- The inputs still queued after a step's were taken were queued before. -/
theorem fetch_inputs_subset (s : State) : ∀ i ∈ (fetch s).2.inputs, i ∈ s.inputs := by
  unfold fetch
  split
  · simp
  · split
    · next h => simp_all
    · split <;> simp

/-- What can select a step: `rst`, a queued input, or the producer by itself. -/
theorem fetch_cases (s : State) :
    (rstLevel s = true ∧ (fetch s).1 = .resetLine 1) ∨
    (rstLevel s = false ∧ ∃ i ∈ s.inputs, (fetch s).1 = i.encoded s.pcmValid) ∨
    (rstLevel s = false ∧ ∃ ready, (fetch s).1 = .handshake (handshakePattern s.pcmValid ready)) := by
  cases hr : rstLevel s with
  | true =>
    left
    unfold rstLevel at hr
    cases hl : s.rstLine with
    | nil => simp [hl] at hr
    | cons b rest =>
      have hb : b = true := by simpa [hl] using hr
      subst hb
      exact ⟨rfl, by rw [fetch_reset hl]⟩
  | false =>
    right
    rw [fetch_low hr]
    cases hi : s.inputs with
    | cons i rest => exact .inl ⟨rfl, i, by simp, rfl⟩
    | nil =>
      refine .inr ⟨rfl, ?_⟩
      cases hv : s.pcmValid
      · exact ⟨false, by simp⟩
      · exact ⟨Config.freePcmReady s.readyCount, by simp⟩

/-! ### The step -/

theorem step_running {s : State} (h : Running s) : step s =
    match decode (fetch s).1 with
    | .ok i => exec i (fetch s).2
    | .error e => .refused (.undecodable e) := by
  obtain ⟨hc, hl⟩ := h
  cases hd : decode (fetch s).1 <;> simp [step, hc, hl, hd]

/-- What a step that answers a next state did: reported code 4, stayed stuck, or ran the selected operation. -/
theorem step_cases {s t : State} (h : step s = .next t) :
    (s.launch = .guardFailed ∧ t = { report .mutexAcquisitionFailure s with launch := .aborted }) ∨
    (s.launch = .aborted ∧ t = s) ∨
    (Running s ∧ ∃ i, decode (fetch s).1 = .ok i ∧ exec i (fetch s).2 = .next t) := by
  by_cases hc : configInRange s.cfg = true
  · cases hl : s.launch with
    | guardFailed => simp only [step, hc, hl, if_true, Host.Outcome.next.injEq] at h; exact .inl ⟨rfl, h.symm⟩
    | aborted => simp only [step, hc, hl, if_true, Host.Outcome.next.injEq] at h; exact .inr (.inl ⟨rfl, h.symm⟩)
    | guardOk =>
      have hr : Running s := ⟨hc, hl⟩
      rw [step_running hr] at h
      split at h
      · next i hi => exact .inr (.inr ⟨hr, i, hi, h⟩)
      · cases h
  · simp [step, hc] at h

/-! ### Runs -/

@[simp] theorem runFor_zero (s : State) : runFor 0 s = .next s := rfl

theorem runFor_succ {s t : State} (h : step s = .next t) (n : Nat) : runFor (n + 1) s = runFor n t := by
  simp [runFor, h]

end Sys2Proof.Machine
end

