-- ==== Sys2Proof/Tests/Slice0.lean ====
section
/-! SUPPORT. Tests with expected results from 95_test_vectors.md (V, X and P name its vectors), then a witness for the
hypotheses of each statement that has some. -/

namespace Sys2Proof.Tests

open Sys2Proof Sys2Proof.Machine

/-! ### Helpers -/

/-- A slot as 95_test_vectors.md writes it, its frequency that of its note. -/
def slot (active : Bool) (noteId : Byte) (target level : Int) (half count : Nat) : Voice :=
  { active := active, noteId := noteId, frequency := .ofNote noteId.toNat
    targetAmplitude := BitVec.ofInt 16 target, currentLevel := BitVec.ofInt 16 level
    halfPeriodSamples := BitVec.ofNat 16 half, samplesUntilFlip := BitVec.ofNat 16 count }

/-- The slots given, then reset ones up to eight. -/
def pool (vs : List Voice) : List Voice := vs ++ List.replicate (8 - vs.length) Voice.reset

/-- The reset state but for those slots. -/
def sounding (vs : List Voice) : State := { State.reset with voices := pool vs }

/-- The reset state but for those inputs. -/
def given (inputs : List Input) (s : State) : State := { s with inputs := inputs }

/-- The next state's part that a test looks at. -/
def after {α : Type} (o : Host.Outcome State Fault Refusal) (view : State → α) : Option α :=
  match o with
  | .next t => some (view t)
  | .fault _ => none
  | .refused _ => none

/-- 100 at note 60 and at note 62, after `OFF 60` (V12). -/
def v12 : State := sounding [slot false 60 25801 0 84 84, slot true 62 25801 25801 75 75]

/-- The stream of X7 at address 1000. -/
def streamX7 : Memory := writeBytes [] 1000 [0x00, 0x60, 0x01, 0x3C, 0x64, 0x00, 0x00, 0x00, 0x00, 0x3C, 0x00, 0x00]

/-- X7's song loaded at 120 bpm. -/
def loadedX7 : State :=
  { State.reset with stream := streamX7, dataPointer := 1000, eventCount := 2, millisPerTick := 125 / 24, songValid := true }

/-- X7's song playing, due at 500. -/
def playingX7 : State := { loadedX7 with playing := true, nextEventDueAt := 500 }

/-- X7's song playing at its second event, note 60 sounding. -/
def secondX7 : State :=
  { playingX7 with eventIndex := 1, now := 500, voices := pool [slot true 60 25801 25801 84 84] }

/-- X7's song with its cursor past the last event. -/
def exhaustedX7 : State := { playingX7 with eventIndex := 2, now := 500 }

/-- The operands of LOAD_SONG at 120 bpm. -/
def bpm120 : BitVec 32 := 0x42F00000

/-! ### Well-formedness -/

theorem test_wellFormed_refuses_evOn_velocity_zero : (Instr.evOn 96 60 0).wellFormed = false := by decide
theorem test_wellFormed_takes_evOn_velocity_one : (Instr.evOn 96 60 1).wellFormed = true := by decide

/-! ### Decoding: a word of each row, written out from its encoding -/

theorem test_decode_noteOff : decode (.command 0b00000000_00111100_01111111_00000000) = .ok (.noteOff 60) := by decide
theorem test_decode_noteOnV0 : decode (.command 0b00000001_01000000_00000000_00000000) = .ok (.noteOnV0 64) := by decide
theorem test_decode_noteOn : decode (.command 0b00000001_00111100_01100100_10100101) = .ok (.noteOn 60 100) := by decide
theorem test_decode_noteOn_loud : decode (.command 0b00000001_01000101_11001000_00000000) = .ok (.noteOn 69 200) := by
  decide
theorem test_decode_render : decode (.handshake 0b00) = .ok .render ∧ decode (.handshake 0b01) = .ok .render := by decide
theorem test_decode_emit : decode (.handshake 0b11) = .ok .emit := by decide
theorem test_decode_hold : decode (.handshake 0b10) = .ok .hold := by decide
theorem test_decode_reset : decode (.resetLine 0b1) = .ok .reset := by decide
theorem test_decode_rst_low : decode (.resetLine 0b0) = .error .resetLineLow := by decide
theorem test_decode_evOff : decode (.event 0b1111111111111111_00000000_11111111_00000000_00000000) =
    .ok (.evOff 65535 255) := by decide
theorem test_decode_evOnV0 : decode (.event 0b0000000000110000_00000001_01000000_00000000_00000000) =
    .ok (.evOnV0 48 64) := by decide
theorem test_decode_evOn : decode (.event 0b0000000100101100_00000001_01000101_01111111_00000000) =
    .ok (.evOn 300 69 127) := by decide
theorem test_decode_loadSong : decode (.hostCall 0b00 { noArgs with dataPointer := some 8, eventCount := 2 }) =
    .ok (.loadSong (some 8) 2 0) := by decide
theorem test_decode_start : decode (.hostCall 0b01 { noArgs with now := 5 }) = .ok (.start 5) := by decide
theorem test_decode_stop : decode (.hostCall 0b10 noArgs) = .ok .stop := by decide
theorem test_decode_update : decode (.hostCall 0b11 { noArgs with now := 5 }) = .ok (.update 5) := by decide
theorem test_decode_refuses_type_two : decode (.command 0x023C6400) = .error (.reservedType 2) := by decide
theorem test_decode_refuses_type_255 : decode (.event 0x0000FF000000) = .error (.reservedType 255) := by decide
theorem test_decode_calls : decode (.noteOnCall 60 (-5)) = .ok (.noteOn 60 (-5)) ∧
    decode (.noteOffCall (-1)) = .ok (.noteOff (-1)) := by decide

/-- V9a. -/
theorem test_assemble : assembleEvent 96 true 60 100 = [0x00, 0x60, 0x01, 0x3C, 0x64, 0x00] ∧
    assembleEvent 300 false 69 0 = [0x01, 0x2C, 0x00, 0x45, 0x00, 0x00] ∧ assembleOn 60 100 = 0x013C6400 ∧
    assembleOff 63 = 0x003F0000 := by decide

/-- V9b. -/
theorem test_frameWord : frameWord { left := BitVec.ofInt 16 (-16254), right := BitVec.ofInt 16 (-16254) } = 0xC082C082 := by
  decide

/-- A word of each width of the opcode table runs as the first instruction after reset. -/
theorem test_withFetchWord_noteOn :
    after (step (State.reset.withFetchWord 32 0x01457F00)) (fun t => t.voices.head?) =
      some (some (slot true 69 32767 32767 50 50)) := by decide
theorem test_withFetchWord_evOn :
    after (step (State.reset.withFetchWord 48 0x012C01457F00)) (fun t => t.voices.head?) =
      some (some (slot true 69 32767 32767 50 50)) := by decide +kernel

/-! ### Memory -/

theorem test_readByte : readByte streamX7 1000 = some 0 ∧ readByte streamX7 1001 = some 0x60 ∧
    readByte streamX7 999 = none ∧ readByte streamX7 1012 = none ∧ streamX7.wf = true := by decide

/-! ### Numerics: tables T1 and T2, the host table -/

theorem test_ampOf : [0, 1, 63, 64, 100, 127].map (ampOf Config.reference) = [0, 258, 16254, 16513, 25801, 32767] ∧
    [1, 2, 63, 64, 100, 126, 127].map (ampOf { Config.reference with aMax := 50 }) = [0, 1, 25, 25, 39, 50, 50] := by
  decide

theorem test_halfPeriod : [0, 12, 20, 55, 60, 69, 93, 105].map (exactHalfPeriod 44100) =
    [2697, 1348, 849, 113, 84, 50, 13, 6] := by decide +kernel

theorem test_halfPeriod_high : [117, 121, 127, 129, 130, 148, 149, 255].map (exactHalfPeriod 44100) =
    [3, 2, 2, 2, 1, 1, 1, 1] := by decide +kernel

theorem test_halfPeriod_other_rates : [48000, 22050, 8000, 1000000].map (fun r => exactHalfPeriod r 60) =
    [92, 42, 15, 1911] := by decide +kernel

theorem test_binary32 : [0x42F00000, 0x42F10000, 0xC1F00000, 0x00000001, 0x7F800000].map binary32Value =
    [some 120, some (241 / 2), some (-30), some (mkRat 1 (2 ^ 149)), none] := by decide +kernel

theorem test_delayOf_100_bpm :
    [1, 2, 12, 65535].map (delayOf Config.reference (millisPerTickOf Config.reference 100)) = [6, 13, 75, 409594] := by
  decide +kernel

/-- Every build has the values of table T1 at the reference A_MAX, whatever its rate (R112, R147), of table T2 at the
reference rate, whatever its other constants, for notes beyond the table too (R112, R241), and the delays of 120 bpm that
are no ties (R163). -/
theorem test_other_functions :
    ampOf { Config.reference with numerics := .implementation, sampleRate := 48000 } 100 = 25801 ∧
    halfPeriodOf { Config.reference with numerics := .implementation, tpqn := 48, aMax := 100 } 60 = 84 ∧
    halfPeriodOf { Config.reference with numerics := .implementation, defaultBpm := 90 } 300 = 1 ∧
    delayOf { Config.reference with numerics := .implementation } (125 / 24) 96 = 500 := by decide +kernel

/-! ### NOTE_OFF, NOTE_ON_V0, NOTE_ON -/

/-- V19a: the other fields keep their values. -/
theorem test_noteOff : after (exec (.noteOff 69) (sounding [slot true 69 32767 32767 50 50])) (fun t => t.voices) =
    some (pool [slot false 69 32767 0 50 50]) := by decide

/-- V19c: an inactive slot is no match. -/
theorem test_noteOff_inactive : after (exec (.noteOff 69) (sounding [slot false 69 32767 0 50 50])) id =
    some (sounding [slot false 69 32767 0 50 50]) := by decide

/-- V17: through the command word no diagnostic. -/
theorem test_noteOnV0 : after (exec (.noteOnV0 60) (sounding [slot true 60 25801 25801 84 84]))
    (fun t => (t.voices, t.diags)) = some (pool [slot false 60 25801 0 84 84], []) := by decide

/-- V12: the note moves to a lower slot. -/
theorem test_noteOn : after (exec (.noteOn 62 50) v12) (fun t => t.voices) =
    some (pool [slot true 62 12900 12900 75 75, slot false 62 25801 0 75 75]) := by decide

/-- V17: the old voice is off and no new one sounds. -/
theorem test_noteOn_rejected : after (exec (.noteOn 60 (-5)) (sounding [slot true 60 25801 25801 84 84]))
    (fun t => (t.voices, t.diags)) = some (pool [slot false 60 25801 0 84 84], [.invalidNoteParameters]) := by decide

/-! ### RENDER, EMIT, HOLD, RESET -/

/-- V23: the flip sample carries the new sign. -/
theorem test_render_flips : after (exec .render (sounding [slot true 60 1000 1000 4 0]))
    (fun t => (t.voices, t.pcmSample.toInt, t.pcmValid)) = some (pool [slot true 60 1000 (-1000) 4 4], -1000, true) := by
  decide

/-- V28 with V34: truncation toward zero, an inactive slot adds nothing. -/
theorem test_render_mixes : after (exec .render (sounding [slot true 1 32767 (-32767) 9 9, slot true 2 258 258 9 9,
    slot false 3 5000 5000 9 9, slot true 4 258 258 9 9])) (fun t => t.pcmSample.toInt) = some (-10750) := by decide

/-- V36. -/
theorem test_emit : after (exec .emit { State.reset with pcmValid := true, pcmSample := BitVec.ofInt 16 (-16254) })
    (fun t => (t.frames.map frameWord, t.pcmValid, t.pcmSample.toInt)) = some ([0xC082C082], false, -16254) := by decide

/-- V37. -/
theorem test_hold : after (exec .hold { State.reset with pcmValid := true, pcmSample := 25801 })
    (fun t => (t.frames, pcmLeft t, pcmRight t)) = some ([], 25801, 25801) := by decide

/-- V40. -/
theorem test_reset : after (exec .reset { secondX7 with pcmValid := true, pcmSample := 7 })
    (fun t => (t.voices, t.pcmValid, t.pcmSample)) = some (List.replicate 8 Voice.reset, false, 0) := by decide

/-! ### The host -/

/-- X7: the note-off of the second record. -/
theorem test_evOff : after (exec (.evOff 0 60) secondX7) (fun t => (t.voices, t.eventIndex, t.returns)) =
    some (pool [slot false 60 25801 0 84 84], 2, [.stillPlaying true]) := by decide

/-- P4, step 8: no match, nothing; the cursor moves. -/
theorem test_evOnV0 : after (exec (.evOnV0 48 64) secondX7) (fun t => (t.voices, t.eventIndex, t.diags)) =
    some (pool [slot true 60 25801 25801 84 84], 2, []) := by decide

/-- X7: the note-off is scheduled at the same time. -/
theorem test_evOn : after (exec (.evOn 96 60 100) { playingX7 with now := 500 })
    (fun t => (t.voices, t.eventIndex, t.nextEventDueAt)) = some (pool [slot true 60 25801 25801 84 84], 1, 500) := by
  decide +kernel

/-- V42: a tempo of -30 becomes 120. -/
theorem test_loadSong : after (exec (.loadSong (some 8) 2 0xC1F00000) playingX7)
    (fun t => (t.millisPerTick, t.playing, t.songValid, t.returns)) = some (125 / 24, false, true, [.loaded true]) := by
  decide +kernel

/-- X9. -/
theorem test_loadSong_rejected : after (exec (.loadSong (some 8) 0 bpm120) loadedX7)
    (fun t => (t.songValid, t.diags, t.returns)) = some (false, [.invalidDescriptor], [.loaded false]) := by decide

/-- V43's stream at 120 bpm. -/
theorem test_start : after (exec (.start 1000) loadedX7) (fun t => (t.nextEventDueAt, t.playing)) = some (1500, true) := by
  decide +kernel

/-- V46. -/
theorem test_start_exhausted : after (exec (.start 2000) { exhaustedX7 with playing := false })
    (fun t => (t.playing, t.nextEventDueAt)) = some (false, 500) := by decide

/-- V45: the cursor stays, note 60 keeps sounding. -/
theorem test_stop : after (exec .stop secondX7) (fun t => (t.playing, t.eventIndex, t.voices)) =
    some (false, 1, pool [slot true 60 25801 25801 84 84]) := by decide

/-- V47: lateness is not made up. -/
theorem test_update : after (exec (.update 830) playingX7) (fun t => (t.voices, t.eventIndex, t.nextEventDueAt, t.returns)) =
    some (pool [slot true 60 25801 25801 84 84], 1, 830, [.stillPlaying true]) := by decide +kernel

/-- X7: nothing before the due time. -/
theorem test_update_early : after (exec (.update 499) playingX7) (fun t => (t.voices, t.eventIndex, t.returns)) =
    some (pool [], 0, [.stillPlaying true]) := by decide

/-! ### Witnesses: the hypotheses of the statements, met together, each clause at its boundaries -/

/-- The reset state with an input queued. -/
def asked (i : Input) : State := given [i] State.reset

theorem witness_DecodeOfEncode : (Instr.evOn 65535 255 1).wellFormed = true ∧ (Instr.noteOn (-1) 256).wellFormed = true := by
  decide

theorem witness_CommandWordDecode_on : (0x01FF0100#32).toNat / 2 ^ 24 = 1 ∧ 0 < (0x01FF0100#32).toNat / 2 ^ 8 % 256 := by
  decide
theorem witness_CommandWordDecode_v0 : (0x01FF00FF#32).toNat / 2 ^ 24 = 1 ∧ (0x01FF00FF#32).toNat / 2 ^ 8 % 256 = 0 := by
  decide
theorem witness_CommandWordDecode_off : (0x00FFFFFF#32).toNat / 2 ^ 24 = 0 := by decide
theorem witness_CommandWordDecode_reserved : 2 ≤ (0x02000000#32).toNat / 2 ^ 24 ∧ 2 ≤ (0xFF000000#32).toNat / 2 ^ 24 := by
  decide

theorem witness_RecordDecode : readByte loadedX7.stream (1000 + 6 * 1) = some 0 ∧
    readByte loadedX7.stream (1000 + 6 * 1 + 1) = some 0 ∧ readByte loadedX7.stream (1000 + 6 * 1 + 2) = some 0 ∧
    readByte loadedX7.stream (1000 + 6 * 1 + 3) = some 60 ∧ readByte loadedX7.stream (1000 + 6 * 1 + 4) = some 0 := by decide

theorem witness_StepRunsTheDecodedInstruction : NextInput (asked (.command 0x013C6400)) (.command 0x013C6400) [] ∧
    decode ((Input.command 0x013C6400).encoded false) = .ok (.noteOn 60 100) := by decide

theorem witness_ProducerStepSelection_render : NextInput (asked (.producer true)) (.producer true) [] ∧
    (asked (.producer true)).pcmValid = false := by decide
theorem witness_ProducerStepSelection_emit :
    NextInput { asked (.producer true) with pcmValid := true } (.producer true) [] := by decide
theorem witness_ProducerStepSelection_hold :
    NextInput { asked (.producer false) with pcmValid := true } (.producer false) [] := by decide

theorem witness_ProducerFreeRuns : Running State.reset ∧ rstLevel State.reset = false ∧ State.reset.inputs = [] ∧
    State.reset.pcmValid = false := by decide
theorem witness_ProducerFreeRuns_full : Running { State.reset with pcmValid := true } ∧
    rstLevel { State.reset with pcmValid := true } = false := by decide

theorem witness_ResetLineOverridesEverything :
    Running { asked (.command 0x013C6400) with rstLine := [true, false] } := by decide

theorem witness_StuckWithoutTheGuard : configInRange State.reset.cfg = true ∧
    ({ State.reset with launch := .guardFailed } : State).launch = .guardFailed := by decide

theorem witness_RefusedRuns_type : NextInput (asked (.command 0x02000000)) (.command 0x02000000) [] ∧
    NextInput (asked (.command 0xFF000000)) (.command 0xFF000000) [] := by decide
theorem witness_RefusedRuns_configuration : configInRange { Config.reference with numVoices := 0 } = false ∧
    configInRange { Config.reference with numVoices := 256 } = false ∧
    configInRange { Config.reference with aMax := 32768 } = false ∧
    configInRange { Config.reference with sampleRate := 1071700 } = false := by decide
theorem witness_RefusedRuns_bpm : (1 : Word) ≠ 0 ∧ (0x7F800000#32).toNat / 2 ^ 23 % 256 = 255 ∧
    (0xFFFFFFFF#32).toNat / 2 ^ 23 % 256 = 255 := by decide
theorem witness_RefusedRuns_time : 499 < secondX7.now := by decide
theorem witness_RefusedRuns_start : loadedX7.playing = false ∧ loadedX7.songValid = true ∧
    loadedX7.eventIndex.toNat < loadedX7.eventCount.toNat ∧ readByte [(1000, 0)] (loadedX7.dataPointer + 1) = none := by decide

/-- A due state of X7's song, at its second record. -/
theorem witness_RefusedRuns_due : secondX7.now ≤ 500 ∧ secondX7.playing = true ∧ secondX7.nextEventDueAt ≤ 500 ∧
    secondX7.eventIndex.toNat < secondX7.eventCount.toNat := by decide
theorem witness_RefusedRuns_record :
    readByte (writeByte streamX7 1008 2) (secondX7.dataPointer + 6 * secondX7.eventIndex.toNat + 2) = some 2 ∧
    readByte (writeByte streamX7 1008 255) (secondX7.dataPointer + 6 * secondX7.eventIndex.toNat + 2) = some 255 ∧
    readByte [(1008, 0), (1009, 0)] (secondX7.dataPointer + 6 * secondX7.eventIndex.toNat + 4) = none := by decide
theorem witness_RefusedRuns_next : playingX7.eventIndex.toNat + 1 < playingX7.eventCount.toNat ∧
    readByte (streamX7.take 7) (playingX7.dataPointer + 6 * playingX7.eventIndex.toNat + 2) = some 1 ∧
    readByte (streamX7.take 7) (playingX7.dataPointer + 6 * playingX7.eventIndex.toNat + 7) = none := by decide

/-- X7's second state satisfies the invariant; so it does with a reserved word, an unreadable stream or a bad tempo ahead. -/
theorem witness_Inv : Inv secondX7 := by decide +kernel
theorem witness_StopsAreTheSpecsOwn_refused : Inv (given [.command 0x02000000] secondX7) ∧
    step (given [.command 0x02000000] secondX7) = .refused (.undecodable (.reservedType 2)) :=
  ⟨by decide +kernel, by rfl⟩
theorem witness_StopsAreTheSpecsOwn_record :
    Inv (given [.hostCall 3 { noArgs with now := 500 }] { secondX7 with stream := writeByte streamX7 1008 255 }) ∧
    step (given [.hostCall 3 { noArgs with now := 500 }] { secondX7 with stream := writeByte streamX7 1008 255 }) =
      .refused (.undecodable (.reservedType 255)) := ⟨by decide +kernel, by rfl⟩
theorem witness_StopsAreTheSpecsOwn_bpm :
    Inv (asked (.hostCall 0 { noArgs with dataPointer := some 0, eventCount := 1, bpm := 0x7F800000 })) ∧
    step (asked (.hostCall 0 { noArgs with dataPointer := some 0, eventCount := 1, bpm := 0x7F800000 })) =
      .refused .bpmNotFinite := ⟨by decide +kernel, by rfl⟩
theorem witness_StopsAreTheSpecsOwn_time : Inv (given [.hostCall 1 { noArgs with now := 499 }] secondX7) ∧
    step (given [.hostCall 1 { noArgs with now := 499 }] secondX7) = .refused .timeRunsBackwards :=
  ⟨by decide +kernel, by rfl⟩
theorem witness_StopsAreTheSpecsOwn_fault :
    Inv (given [.hostCall 3 { noArgs with now := 500 }] { secondX7 with stream := [] }) ∧
    step (given [.hostCall 3 { noArgs with now := 500 }] { secondX7 with stream := [] }) =
      .fault (.eventStreamUnreadable 1) := ⟨by decide +kernel, by rfl⟩

theorem witness_NoteOffFreesTheFirstMatch : v12.voices[1]? = some (slot true 62 25801 25801 75 75) ∧
    Sounds (slot true 62 25801 25801 75 75) 62 ∧
    ∀ (i : Nat) (w : Voice), i < 1 → v12.voices[i]? = some w → ¬ Sounds w 62 := by
  refine ⟨by decide, by decide, fun i w hi hw => ?_⟩
  obtain rfl : i = 0 := by omega
  obtain rfl := Option.some.inj hw
  decide

theorem witness_NoteOffWithoutMatchDoesNothing : ∀ w ∈ v12.voices, ¬ Sounds w 60 := by decide

theorem witness_NoteOnV0IsNoteOff : Sounds (slot true 62 25801 25801 75 75) (62 : Byte).toNat ∧
    ∀ w ∈ v12.voices, ¬ Sounds w (60 : Byte).toNat := by decide

theorem witness_NoteOnTakesTheLowestFreeSlot : (∀ w ∈ v12.voices, ¬ Sounds w 255) ∧
    v12.voices[0]? = some (slot false 60 25801 0 84 84) ∧
    (∀ (i : Nat) (w : Voice), i < 0 → v12.voices[i]? = some w → w.active = true) ∧
    ampOf v12.cfg (clampVelocity 1) ≠ 0 :=
  ⟨by decide, by decide, fun i _ hi => absurd hi (Nat.not_lt_zero i), by decide⟩

theorem witness_RetriggerIsNoteOffFirst : Exclusive v12.voices := by decide

/-- Every slot sounds note 60 or a higher one (P3). -/
def full : State := { State.reset with voices := (List.range 8).map fun i => slot true (BitVec.ofNat 8 (60 + i)) 25801 25801 50 50 }

theorem witness_RetriggerAtAFullPoolSucceeds : (∀ w ∈ full.voices, w.active = true) ∧
    full.voices[1]? = some (slot true 61 25801 25801 50 50) ∧ Sounds (slot true 61 25801 25801 50 50) 61 ∧
    (∀ (i : Nat) (w : Voice), i < 1 → full.voices[i]? = some w → ¬ Sounds w 61) ∧
    ampOf full.cfg (clampVelocity 127) ≠ 0 := by
  refine ⟨by decide, by decide, by decide, fun i w hi hw => ?_, by decide⟩
  obtain rfl : i = 0 := by omega
  obtain rfl := Option.some.inj hw
  decide

theorem witness_ExhaustedPoolDropsTheNote : ∀ w ∈ full.voices, w.active = true ∧ ¬ Sounds w 68 := by decide

theorem witness_ZeroAmplitudeIsRejected : (∃ w ∈ v12.voices, w.active = false ∨ Sounds w 60) ∧
    (-5 : Int) ≤ 0 ∧ ampOf { v12.cfg with aMax := 63 } (clampVelocity 1) = 0 := by decide

theorem witness_NoteOnStealsNoVoice : v12.voices[1]? = some (slot true 62 25801 25801 75 75) ∧
    ¬ Sounds (slot true 62 25801 25801 75 75) 60 := by decide

theorem witness_NoteOnOutsideTheRegister : (-1 < (0 : Int) ∧ 255 < (256 : Int)) ∧
    v12.voices.length ≤ 255 ∧ v12.voices[0]? = some (slot false 60 25801 0 84 84) ∧
    (freqOf v12.cfg 256).isNonPositive = false ∧ ampOf v12.cfg (clampVelocity 100) ≠ 0 := by decide

theorem witness_AmplitudeMapping : Config.reference.numerics = .reference ∧ Config.reference.aMax = 32767 := by decide

theorem witness_NumericFunctionsKeepTheirRanges :
    configInRange { Config.reference with numerics := .implementation } = true ∧
    configInRange { Config.reference with numerics := .implementation, sampleRate := 48000 } = true ∧
    configInRange { Config.reference with numerics := .implementation, aMax := 1 } = true := by decide

theorem witness_HighNotesHaveHalfPeriodOne :
    ({ Config.reference with numerics := .implementation, tpqn := 48 } : Config).sampleRate = 44100 := by decide

theorem witness_CommandWordsAreNotRejected : 64 ≤ ({ Config.reference with aMax := 64 } : Config).aMax ∧
    (1 : Byte) ≠ 0 := by decide

theorem witness_HalfPeriodIsTheRoundedRealQuotient : configInRange Config.reference = true ∧
    Config.reference.numerics = .reference := by decide

theorem witness_RenderStepsEveryOscillator : v12.pcmValid = false ∧
    v12.voices[0]? = some (slot false 60 25801 0 84 84) ∧ v12.voices[1]? = some (slot true 62 25801 25801 75 75) := by
  decide
theorem witness_RenderStepsEveryOscillator_flip : (slot true 62 25801 25801 75 0).samplesUntilFlip = 0 ∧
    (slot true 62 25801 25801 75 1).samplesUntilFlip ≠ 0 := by decide

theorem witness_RenderMixesTheClampedAverage : v12.pcmValid = false ∧ (sounding []).pcmValid = false := by decide

theorem witness_ClampNeverActs : Inv secondX7 ∧ secondX7.pcmValid = false := by decide +kernel

theorem witness_SlotOrderDoesNotMatter : v12.voices.Perm v12.voices.reverse := (List.reverse_perm _).symm

/-- X6's voice alone, for eight frames. -/
def x6 : State := given (List.replicate (2 * 8) (.producer true)) (sounding [slot true 60 1000 1000 4 4])

theorem witness_WaveformOfOneVoice : Running x6 ∧ x6.rstLine = [] ∧ x6.pcmValid = false ∧
    x6.voices[0]? = some (slot true 60 1000 1000 4 4) ∧ 1 ≤ (slot true 60 1000 1000 4 4).targetAmplitude.toInt ∧
    ∀ (i : Nat) (w : Voice), i ≠ 0 → x6.voices[i]? = some w → w.active = false := by
  refine ⟨by decide, rfl, rfl, by decide, by decide, fun i w hi hw => ?_⟩
  obtain ⟨j, rfl⟩ : ∃ j, i = j + 1 := ⟨i - 1, by omega⟩
  have h : (List.replicate 7 Voice.reset)[j]? = some w := hw
  have : w = Voice.reset := List.eq_of_mem_replicate (List.mem_of_getElem? h)
  rw [this]
  decide

theorem witness_EmptyPoolEmitsSilence : Running (given (List.replicate (2 * 3) (.producer true)) State.reset) ∧
    ∀ w ∈ (given (List.replicate (2 * 3) (.producer true)) State.reset).voices, w.active = false := by decide

theorem witness_EmitOutputsTheSampleTwice : ({ State.reset with pcmValid := true } : State).pcmValid = true := by decide

theorem witness_HoldIsTheIdentity : ({ State.reset with pcmValid := true } : State).pcmValid = true := by decide

theorem witness_PendingFrameGoesOutUnchanged : ∃ t,
    step { asked (.producer true) with pcmValid := true, pcmSample := 7 } = .next t ∧ t.frames = [⟨7, 7⟩] :=
  ⟨_, rfl, by decide⟩

theorem witness_LoadSongInstalls : (1 : Word) ≠ 0 ∧ binary32Value bpm120 = some 120 := by decide +kernel

theorem witness_LoadSongRejects : (none : Option Nat) = none ∧ (0 : Word) = 0 := by decide

theorem witness_DelayIsTheRoundedProduct : Config.reference.numerics = .reference ∧ (0 : Rat) ≤ 125 / 24 := by
  decide +kernel

theorem witness_StartSchedules : loadedX7.now ≤ 0 ∧ loadedX7.playing = false ∧ loadedX7.songValid = true ∧
    loadedX7.eventIndex.toNat < loadedX7.eventCount.toNat ∧
    readByte loadedX7.stream (loadedX7.dataPointer + 6 * loadedX7.eventIndex.toNat) = some 0 ∧
    readByte loadedX7.stream (loadedX7.dataPointer + 6 * loadedX7.eventIndex.toNat + 1) = some 0x60 := by decide

theorem witness_StartDoesNothing : playingX7.playing = true ∧ State.reset.songValid = false ∧
    ({ exhaustedX7 with playing := false } : State).eventCount.toNat ≤ exhaustedX7.eventIndex.toNat := by decide

theorem witness_UpdateWithoutDispatch : loadedX7.playing = false ∧ 499 < playingX7.nextEventDueAt ∧
    exhaustedX7.playing = true ∧ exhaustedX7.nextEventDueAt ≤ 500 ∧ exhaustedX7.now ≤ 500 ∧
    exhaustedX7.eventCount.toNat ≤ exhaustedX7.eventIndex.toNat := by decide

theorem witness_UpdateDispatches_next : playingX7.now ≤ 500 ∧ playingX7.playing = true ∧ playingX7.nextEventDueAt ≤ 500 ∧
    playingX7.eventIndex.toNat + 1 < playingX7.eventCount.toNat ∧
    readByte playingX7.stream (playingX7.dataPointer + 6 * playingX7.eventIndex.toNat + 2) = some 1 ∧
    readByte playingX7.stream (playingX7.dataPointer + 6 * playingX7.eventIndex.toNat + 3) = some 60 ∧
    readByte playingX7.stream (playingX7.dataPointer + 6 * playingX7.eventIndex.toNat + 4) = some 100 ∧
    readByte playingX7.stream (playingX7.dataPointer + 6 * (playingX7.eventIndex.toNat + 1)) = some 0 ∧
    readByte playingX7.stream (playingX7.dataPointer + 6 * (playingX7.eventIndex.toNat + 1) + 1) = some 0 := by decide

theorem witness_UpdateDispatches_last : secondX7.now ≤ 500 ∧ secondX7.playing = true ∧ secondX7.nextEventDueAt ≤ 500 ∧
    secondX7.eventIndex.toNat + 1 = secondX7.eventCount.toNat ∧
    readByte secondX7.stream (secondX7.dataPointer + 6 * secondX7.eventIndex.toNat + 2) = some 0 ∧
    readByte secondX7.stream (secondX7.dataPointer + 6 * secondX7.eventIndex.toNat + 3) = some 60 ∧
    readByte secondX7.stream (secondX7.dataPointer + 6 * secondX7.eventIndex.toNat + 4) = some 0 := by decide

theorem witness_EventRecordsDispatch : secondX7.playing = true ∧ secondX7.nextEventDueAt ≤ secondX7.now ∧
    secondX7.eventIndex.toNat < secondX7.eventCount.toNat := by decide

theorem witness_UpdateRunsTheRecordAtTheCursor :
    decode (.event (recordOfBytes 0 0 0 60 0 0xA5)) = .ok (.evOff 0 60) ∧
    readByte secondX7.stream (secondX7.dataPointer + 6 * secondX7.eventIndex.toNat + 2) = some 0 := by decide

theorem witness_HostStateMachine : HostInv loadedX7 ∧ HostInv playingX7 ∧ HostInv exhaustedX7 ∧ HostInv State.reset := by
  decide +kernel
theorem witness_HostStateMachine_calls : (∃ t, exec (.loadSong none 5 bpm120) loadedX7 = .next t) ∧
    (∃ t, exec (.start 0) loadedX7 = .next t) ∧ (∃ t, exec .stop playingX7 = .next t) ∧
    ∃ t, exec (.update 500) exhaustedX7 = .next t := ⟨⟨_, rfl⟩, ⟨_, rfl⟩, ⟨_, rfl⟩, ⟨_, rfl⟩⟩

theorem witness_EventsAreNeverEarly : ∃ t, exec (.update 500) playingX7 = .next t ∧ t.eventIndex ≠ playingX7.eventIndex :=
  ⟨_, rfl, by decide⟩

theorem witness_SongEndsOnce : Inv exhaustedX7 ∧ exhaustedX7.playing = true ∧ exhaustedX7.eventIndex = exhaustedX7.eventCount ∧
    exhaustedX7.now ≤ 500 ∧ [500, 500, 9999].Pairwise (· ≤ ·) := by decide +kernel

theorem witness_WhoWritesTheBlock : ∃ t, exec (.noteOn 60 100) v12 = .next t := ⟨_, rfl⟩

theorem witness_NothingIsStoredAndOutputsOnlyGrow : ∃ t,
    step (asked (.hostCall 0 { noArgs with eventCount := 1 })) = .next t ∧ t.diags = [.invalidDescriptor] :=
  ⟨_, rfl, by decide⟩

theorem witness_StepKeepsTheInvariant_call : Inv (asked (.noteOnCall 300 127)) ∧ Inv (asked (.noteOnCall (-2000) 127)) :=
  ⟨by decide +kernel, by decide +kernel⟩

theorem witness_StepKeepsTheInvariant : Inv (given [.producer true] secondX7) ∧
    ∃ t, step (given [.producer true] secondX7) = .next t ∧ t.pcmSample = 25801 :=
  ⟨by decide +kernel, _, rfl, by decide⟩

theorem witness_InactiveFieldsNeverShow : SameButInactive v12 (sounding [Voice.reset, slot true 62 25801 25801 75 75]) ∧
    v12 ≠ sounding [Voice.reset, slot true 62 25801 25801 75 75] := by
  refine ⟨?_, by decide⟩
  unfold SameButInactive
  decide

/-- Note 62 in slot 0 or in slot 1, with an inactive slot beside it. -/
theorem witness_SlotPlacementNeverShows : SamePools v12 (sounding [slot true 62 25801 25801 75 75]) ∧
    v12 ≠ sounding [slot true 62 25801 25801 75 75] := by
  refine ⟨⟨⟨?_, rfl⟩, by decide, by decide⟩, by decide⟩
  decide

/-- A NOTE_ON whose half-period depends on the rate. -/
theorem witness_RateEntersOnlyByTheHalfPeriod :
    after (exec (.noteOn 60 100) (atRate 22050 State.reset)) (fun t => t.voices) =
      some (pool [slot true 60 25801 25801 42 42]) := by decide +kernel

end Sys2Proof.Tests
end

section
/-! SUPPORT. Two states that differ in their voice tables and in `SAMPLE_RATE` only: the host agent reads neither, so it
treats them alike. A claim about what an output can depend on (R15, R24, R147) is then one about the voice commands. -/

namespace Sys2Proof.Machine

/-- The same state with another voice table, built for another `SAMPLE_RATE`. -/
def twin (vs : List Voice) (rate : Nat) (s : State) : State := atRate rate (setVoices vs s)

/-- Two states that are the same but for their voice tables and their rates, which are related by `P`. -/
def Twins (P : Nat → List Voice → Nat → List Voice → Prop) (s t : State) : Prop :=
  ∃ vs rate, t = twin vs rate s ∧ P s.cfg.sampleRate s.voices rate vs

/-- The operation takes related states to related ones. -/
def KeepsTwins (P : Nat → List Voice → Nat → List Voice → Prop) (f : State → State) : Prop :=
  ∀ s t, Twins P s t → Twins P (f s) (f t)

theorem AgreeingOutcomes.imp {R R' : State → State → Prop} (h : ∀ s t, R s t → R' s t) :
    ∀ {o o' : Host.Outcome State Fault Refusal}, AgreeingOutcomes R o o' → AgreeingOutcomes R' o o'
  | .next s, .next t, agree => h s t agree
  | .fault _, .fault _, agree => agree
  | .refused _, .refused _, agree => agree

section
variable {P : Nat → List Voice → Nat → List Voice → Prop} {s t : State}

/-! ### What twins have in common -/

@[simp] theorem twin_rstLine (vs : List Voice) (rate : Nat) (s : State) : (twin vs rate s).rstLine = s.rstLine := rfl
@[simp] theorem twin_inputs (vs : List Voice) (rate : Nat) (s : State) : (twin vs rate s).inputs = s.inputs := rfl

theorem readDelta_twin (vs : List Voice) (rate : Nat) (s : State) (k : Nat) :
    readDelta (twin vs rate s) k = readDelta s k := readDelta_congr rfl rfl k

theorem readCommand_twin (vs : List Voice) (rate : Nat) (s : State) (k : Nat) :
    readCommand (twin vs rate s) k = readCommand s k := readCommand_congr rfl rfl k

/-- Twins take the same input. -/
theorem fetch_twin (vs : List Voice) (rate : Nat) (s : State) :
    fetch (twin vs rate s) = ((fetch s).1, twin vs rate (fetch s).2) := by
  unfold fetch
  simp only [twin_rstLine, twin_inputs]
  split
  · rfl
  · split
    · rfl
    · by_cases full : s.pcmValid = true
      · rw [if_pos full, if_pos (show (twin vs rate s).pcmValid = true from full)]
        rfl
      · rw [if_neg full, if_neg (show ¬ (twin vs rate s).pcmValid = true from full)]
        rfl

/-- An operation that reads and writes neither the voice table nor the rate keeps every relation on them. -/
theorem Twins.update {f : State → State} (h : Twins P s t)
    (commutes : ∀ vs rate, f (twin vs rate s) = twin vs rate (f s))
    (rate : (f s).cfg.sampleRate = s.cfg.sampleRate) (voices : (f s).voices = s.voices) : Twins P (f s) (f t) := by
  obtain ⟨vs, r, rfl, hP⟩ := h
  exact ⟨vs, r, commutes vs r, by rwa [rate, voices]⟩

theorem Twins.report (h : Twins P s t) (d : Diagnostic) : Twins P (report d s) (report d t) :=
  h.update (f := Machine.report d) (fun _ _ => rfl) rfl rfl

theorem Twins.returnValue (h : Twins P s t) (r : HostReturn) : Twins P (returnValue r s) (returnValue r t) :=
  h.update (f := Machine.returnValue r) (fun _ _ => rfl) rfl rfl

theorem Twins.sampleTime (h : Twins P s t) (now : Nat) : Twins P (sampleTime now s) (sampleTime now t) :=
  h.update (f := Machine.sampleTime now) (fun _ _ => rfl) rfl rfl

theorem Twins.setPlaying (h : Twins P s t) (b : Bool) : Twins P (setPlaying b s) (setPlaying b t) :=
  h.update (f := Machine.setPlaying b) (fun _ _ => rfl) rfl rfl

theorem Twins.setDue (h : Twins P s t) (due : Nat) : Twins P (setDue due s) (setDue due t) :=
  h.update (f := Machine.setDue due) (fun _ _ => rfl) rfl rfl

theorem Twins.advanceCursor (h : Twins P s t) : Twins P (advanceCursor s) (advanceCursor t) :=
  h.update (f := Machine.advanceCursor) (fun _ _ => rfl) rfl rfl

theorem Twins.rejectSong (h : Twins P s t) : Twins P (rejectSong s) (rejectSong t) :=
  h.update (f := Machine.rejectSong) (fun _ _ => rfl) rfl rfl

theorem Twins.installSong (h : Twins P s t) (p : Nat) (c : Word) (m : Rat) :
    Twins P (installSong p c m s) (installSong p c m t) :=
  h.update (f := Machine.installSong p c m) (fun _ _ => rfl) rfl rfl

theorem Twins.outputFrame (h : Twins P s t) : Twins P (outputFrame s) (outputFrame t) :=
  h.update (f := Machine.outputFrame) (fun _ _ => rfl) rfl rfl

/-! ### The host agent -/

theorem poll_twins {event : State → Host.Outcome State Fault Refusal} (h : Twins P s t)
    (hevent : AgreeingOutcomes (Twins P) (event s) (event t)) :
    AgreeingOutcomes (Twins P) (poll event s) (poll event t) := by
  obtain ⟨hplaying, hnow, hdue, hcount, hindex⟩ : t.playing = s.playing ∧ t.now = s.now ∧
      t.nextEventDueAt = s.nextEventDueAt ∧ t.eventCount = s.eventCount ∧ t.eventIndex = s.eventIndex := by
    obtain ⟨vs, rate, rfl, -⟩ := h
    exact ⟨rfl, rfl, rfl, rfl, rfl⟩
  unfold poll
  rw [hplaying, hnow, hdue, hcount, hindex]
  split
  · exact h.returnValue _
  · split
    · exact h.returnValue _
    · split
      · exact (h.setPlaying false).returnValue _
      · exact hevent

theorem reschedule_twins (h : Twins P s t) : AgreeingOutcomes (Twins P) (reschedule s) (reschedule t) := by
  obtain ⟨hnow, hcount, hindex, hdelta, hdelay⟩ : t.now = s.now ∧ t.eventCount = s.eventCount ∧
      t.eventIndex = s.eventIndex ∧ readDelta t = readDelta s ∧
      delayOf t.cfg t.millisPerTick = delayOf s.cfg s.millisPerTick := by
    obtain ⟨vs, rate, rfl, -⟩ := h
    exact ⟨rfl, rfl, rfl, funext (readDelta_twin vs rate s), rfl⟩
  unfold reschedule
  rw [hnow, hcount, hindex, hdelta, hdelay]
  split
  · cases readDelta s s.eventIndex.toNat with
    | none => rfl
    | some d => exact (h.setDue _).returnValue _
  · exact h.returnValue _

theorem processEvent_twins {command : State → State} (hcommand : KeepsTwins P command) (h : Twins P s t) :
    AgreeingOutcomes (Twins P) (processEvent command s) (processEvent command t) :=
  reschedule_twins (hcommand s t h).advanceCursor

/-- A dispatched command is a NOTE_OFF or a NOTE_ON (R62). -/
theorem runCommand_keepsTwins (hoff : ∀ n, KeepsTwins P (noteOff n)) (hon : ∀ n v, KeepsTwins P (noteOn n v))
    (c : Command) : KeepsTwins P (runCommand c) := by
  cases c with
  | noteOff n => exact hoff n.toNat
  | noteOnV0 n => exact hoff n.toNat
  | noteOn n v => exact hon n.toNat v.toNat

theorem processRecord_twins (hrun : ∀ c, KeepsTwins P (runCommand c)) (h : Twins P s t) :
    AgreeingOutcomes (Twins P) (processRecord s) (processRecord t) := by
  obtain ⟨hindex, hcommand⟩ : t.eventIndex = s.eventIndex ∧ readCommand t = readCommand s := by
    obtain ⟨vs, rate, rfl, -⟩ := h
    exact ⟨rfl, funext (readCommand_twin vs rate s)⟩
  unfold processRecord
  rw [hindex, hcommand]
  cases readCommand s s.eventIndex.toNat with
  | none => rfl
  | some w =>
    simp only
    cases commandOf w with
    | error e => rfl
    | ok c => exact processEvent_twins (hrun c) h

theorem execUpdate_twins (hrun : ∀ c, KeepsTwins P (runCommand c)) (now : Nat) (h : Twins P s t) :
    AgreeingOutcomes (Twins P) (execUpdate now s) (execUpdate now t) := by
  have hnow : t.now = s.now := by
    obtain ⟨vs, rate, rfl, -⟩ := h
    rfl
  unfold execUpdate
  rw [hnow]
  split
  · rfl
  · exact poll_twins (h.sampleTime now) (processRecord_twins hrun (h.sampleTime now))

theorem execLoadSong_twins (p : Option Nat) (c : Word) (bpm : BitVec 32) (h : Twins P s t) :
    AgreeingOutcomes (Twins P) (execLoadSong p c bpm s) (execLoadSong p c bpm t) := by
  have htick : ∀ b, millisPerTickOf t.cfg (tempoOf t.cfg b) = millisPerTickOf s.cfg (tempoOf s.cfg b) := by
    obtain ⟨vs, rate, rfl, -⟩ := h
    exact fun _ => rfl
  unfold execLoadSong
  cases p with
  | none => exact h.rejectSong
  | some p =>
    simp only [htick]
    split
    · exact h.rejectSong
    · cases binary32Value bpm with
      | none => rfl
      | some b => exact (h.installSong p c _).returnValue _

theorem execStart_twins (now : Nat) (h : Twins P s t) :
    AgreeingOutcomes (Twins P) (execStart now s) (execStart now t) := by
  obtain ⟨hplaying, hsong, hnow, hcount, hindex, hdelta, hdelay⟩ : t.playing = s.playing ∧ t.songValid = s.songValid ∧
      t.now = s.now ∧ t.eventCount = s.eventCount ∧ t.eventIndex = s.eventIndex ∧ readDelta t = readDelta s ∧
      delayOf t.cfg t.millisPerTick = delayOf s.cfg s.millisPerTick := by
    obtain ⟨vs, rate, rfl, -⟩ := h
    exact ⟨rfl, rfl, rfl, rfl, rfl, funext (readDelta_twin vs rate s), rfl⟩
  unfold execStart
  rw [hplaying, hsong, hnow, hcount, hindex, hdelta, hdelay]
  split
  · rfl
  · split
    · exact h.sampleTime now
    · split
      · exact h.sampleTime now
      · cases readDelta s s.eventIndex.toNat with
        | none => rfl
        | some d => exact ((h.sampleTime now).setDue _).setPlaying true

theorem execStop_twins (h : Twins P s t) : AgreeingOutcomes (Twins P) (execStop s) (execStop t) := by
  have hplaying : t.playing = s.playing := by
    obtain ⟨vs, rate, rfl, -⟩ := h
    rfl
  unfold execStop
  rw [hplaying]
  split
  · exact h.setPlaying false
  · exact h

/-! ### Every instruction -/

theorem Twins.pcmValid_eq (h : Twins P s t) : t.pcmValid = s.pcmValid := by
  obtain ⟨vs, rate, rfl, -⟩ := h
  rfl

/-- The instructions that can run a NOTE_ON, which alone reads the rate (R106). -/
def mayNoteOn : Instr → Bool
  | .noteOn _ _ | .evOn _ _ _ | .update _ => true
  | _ => false

/-- Every instruction keeps a relation on voice tables and rates that the block's own operations keep: NOTE_OFF, and
NOTE_ON, RENDER and RESET where the instruction can run them. -/
theorem exec_twins (i : Instr) (h : Twins P s t) (hoff : ∀ n, KeepsTwins P (noteOff n))
    (hon : mayNoteOn i = true → ∀ n v, KeepsTwins P (noteOn n v))
    (hrender : i = .render → Twins P (render s) (render t))
    (hreset : i = .reset → Twins P (resetBlock s) (resetBlock t)) :
    AgreeingOutcomes (Twins P) (exec i s) (exec i t) := by
  cases i with
  | noteOff n => exact hoff n s t h
  | noteOnV0 n => exact hoff n.toNat s t h
  | noteOn n v => exact hon rfl n v s t h
  | render =>
    simp only [exec, execRender, h.pcmValid_eq]
    split
    · rfl
    · exact hrender rfl
  | emit =>
    simp only [exec, execEmit, h.pcmValid_eq]
    split
    · exact h.outputFrame
    · rfl
  | hold =>
    simp only [exec, execHold, h.pcmValid_eq]
    split
    · exact h
    · rfl
  | reset => exact hreset rfl
  | evOff d n => exact poll_twins h (processEvent_twins (hoff n.toNat) h)
  | evOnV0 d n => exact poll_twins h (processEvent_twins (hoff n.toNat) h)
  | evOn d n v => exact poll_twins h (processEvent_twins (hon rfl n.toNat v.toNat) h)
  | loadSong p c bpm => exact execLoadSong_twins p c bpm h
  | start now => exact execStart_twins now h
  | stop => exact execStop_twins h
  | update now => exact execUpdate_twins (runCommand_keepsTwins hoff (hon rfl)) now h

end

end Sys2Proof.Machine
end

section
/-! SUPPORT. Two voice tables in which the same voices sound in whatever slots (R24 item 3): what the block's operations
make of them. All is said of the list of the active slots, of which one table's is a permutation of the other's. -/

namespace Sys2Proof.Machine

/-- Tables of one size, 255 slots at most, with the same active slots in some order, no note in two of them. -/
structure SamePool (vs ws : List Voice) : Prop where
  length : vs.length = ws.length
  active : (vs.filter Voice.active).Perm (ws.filter Voice.active)
  exclusive : Exclusive vs
  small : vs.length ≤ 255

/-! ### The active slots -/

@[simp] theorem visible_active (v : Voice) : v.visible.active = v.active := by
  cases h : v.active <;> simp [Voice.visible, Voice.reset, h]

theorem filter_active_map_visible (vs : List Voice) :
    (vs.map Voice.visible).filter Voice.active = vs.filter Voice.active := by
  induction vs with
  | nil => rfl
  | cons v vs ih =>
    cases h : v.active with
    | true => simp [h, ih, Voice.visible]
    | false => simp [h, ih]

/-- What shows of a table is its active slots, and how many others there are. -/
theorem map_visible_perm (vs : List Voice) : (vs.map Voice.visible).Perm
    (vs.filter Voice.active ++ List.replicate (vs.length - (vs.filter Voice.active).length) Voice.reset) := by
  induction vs with
  | nil => rfl
  | cons v vs ih =>
    have hle := List.length_filter_le Voice.active vs
    cases h : v.active with
    | true => simpa [h, Voice.visible] using ih.cons v
    | false =>
      have hreset : Voice.visible v = Voice.reset := by simp [Voice.visible, h]
      rw [List.map_cons, hreset, List.filter_cons_of_neg (by simp [h]), List.length_cons, Nat.succ_sub hle,
        List.replicate_succ]
      exact (ih.cons Voice.reset).trans List.perm_middle.symm

/-- The same slots show just when the tables are of one size and their active slots are the same. -/
theorem map_visible_perm_iff (vs ws : List Voice) : (vs.map Voice.visible).Perm (ws.map Voice.visible) ↔
    vs.length = ws.length ∧ (vs.filter Voice.active).Perm (ws.filter Voice.active) := by
  constructor
  · intro h
    refine ⟨by simpa using h.length_eq, ?_⟩
    simpa only [filter_active_map_visible] using h.filter Voice.active
  · rintro ⟨hlen, hperm⟩
    refine (map_visible_perm vs).trans (.trans ?_ (map_visible_perm ws).symm)
    rw [hlen, hperm.length_eq]
    exact hperm.append_right _

/-- That no note is in two slots is a claim about the active slots (R14 item 4). -/
theorem exclusive_iff (vs : List Voice) :
    Exclusive vs ↔ (vs.filter Voice.active).Pairwise fun v w => v.noteId ≠ w.noteId := List.pairwise_filter.symm

theorem filter_active_replicate_reset (n : Nat) :
    (List.replicate n Voice.reset).filter Voice.active = [] := by
  simp [Voice.reset]

theorem filter_active_map_oscillate (vs : List Voice) :
    (vs.map oscillate).filter Voice.active = (vs.filter Voice.active).map oscillate := by
  rw [List.filter_map]
  congr 2
  funext v
  simp

theorem silenceNote_cons (noteId : Int) (v : Voice) (vs : List Voice) : silenceNote noteId (v :: vs) =
    if v.plays noteId then v.deactivate :: vs else v :: silenceNote noteId vs := by
  by_cases h : v.plays noteId = true
  · simp [silenceNote, findNote, List.findIdx?_cons, h]
  · cases hf : List.findIdx? (Voice.plays noteId) vs <;> simp [silenceNote, findNote, List.findIdx?_cons, h, hf]

theorem noteId_eq_of_sounds {v w : Voice} {noteId : Int} (hv : Sounds v noteId) (hw : Sounds w noteId) :
    v.noteId = w.noteId := BitVec.eq_of_toNat_eq (by exact_mod_cast hv.2.trans hw.2.symm)

/-- A silenced note sounds in no slot of a table in which no note sounded twice. -/
theorem not_sounds_silenceNote {vs : List Voice} (h : Exclusive vs) (noteId : Int) :
    ∀ w ∈ silenceNote noteId vs, ¬ Sounds w noteId := by
  induction vs with
  | nil => simp [silenceNote_none]
  | cons v vs ih =>
    obtain ⟨hne, hrest⟩ := List.pairwise_cons.mp h
    rw [silenceNote_cons]
    by_cases hplays : v.plays noteId = true
    · have hv : Sounds v noteId := (plays_iff noteId v).mp hplays
      rw [if_pos hplays, List.forall_mem_cons]
      exact ⟨not_sounds_deactivate v noteId, fun w hw hs => hne w hw hv.1 hs.1 (noteId_eq_of_sounds hv hs)⟩
    · rw [if_neg hplays, List.forall_mem_cons]
      exact ⟨fun hs => hplays ((plays_iff noteId v).mpr hs), ih hrest⟩

/-- Silencing a note takes its first slot from the active ones (R109). -/
theorem filter_active_silenceNote (noteId : Int) (vs : List Voice) :
    (silenceNote noteId vs).filter Voice.active = (vs.filter Voice.active).eraseP (Voice.plays noteId) := by
  induction vs with
  | nil => rfl
  | cons v vs ih =>
    rw [silenceNote_cons]
    by_cases hplays : v.plays noteId = true
    · have hactive : v.active = true := ((plays_iff noteId v).mp hplays).1
      rw [if_pos hplays, List.filter_cons_of_pos hactive, List.eraseP_cons_of_pos hplays,
        List.filter_cons_of_neg (by simp [Voice.deactivate])]
    · rw [if_neg hplays]
      cases hactive : v.active <;> simp [hactive, hplays, ih]

/-- A slot written in the place of a free one joins the active ones. -/
theorem filter_active_set {vs : List Voice} {j : Nat} {w v : Voice} (hj : vs[j]? = some w) (hw : w.active = false)
    (hv : v.active = true) : ((vs.set j v).filter Voice.active).Perm (v :: vs.filter Voice.active) := by
  induction vs generalizing j with
  | nil => simp at hj
  | cons u us ih =>
    cases j with
    | zero =>
      obtain rfl : u = w := by simpa using hj
      simp [hv, hw]
    | succ j =>
      have := ih (by simpa using hj)
      cases hu : u.active with
      | false => simpa [hu] using this
      | true => simpa [hu] using (this.cons u).trans (.swap v u _)

/-! ### What the two tables have in common -/

namespace SamePool

variable {vs ws : List Voice}

theorem replicate_reset {n : Nat} (h : n ≤ 255) :
    SamePool (List.replicate n Voice.reset) (List.replicate n Voice.reset) where
  length := rfl
  active := .refl _
  exclusive := by rw [exclusive_iff, filter_active_replicate_reset]; exact .nil
  small := by simpa using h

theorem symm (h : SamePool vs ws) : SamePool ws vs where
  length := h.length.symm
  active := h.active.symm
  exclusive := by
    rw [exclusive_iff, ← h.active.pairwise_iff Ne.symm, ← exclusive_iff]
    exact h.exclusive
  small := h.length ▸ h.small

/-- A table without a free slot matches no table that has one. -/
theorem all_active (h : SamePool vs ws) (hall : ∀ v ∈ vs, v.active = true) : ∀ w ∈ ws, w.active = true := by
  rw [← List.length_filter_eq_length_iff] at hall ⊢
  rw [← h.active.length_eq, hall, h.length]

theorem soundingNotes_eq (h : SamePool vs ws) : soundingNotes vs = soundingNotes ws := by
  apply soundingNotes_congr
  intro b
  have hmem : ∀ v, v ∈ vs ∧ v.active = true ↔ v ∈ ws ∧ v.active = true := by
    simpa using fun v => h.active.mem_iff (a := v)
  simp only [← and_assoc, hmem]

theorem newVoice_eq (h : SamePool vs ws) (cfg : Config) (noteId : Int) (amplitude : Nat) :
    newVoice cfg vs noteId amplitude = newVoice cfg ws noteId amplitude := by
  simp only [newVoice, noteRegister, h.soundingNotes_eq]

/-- The sum and the count of the mixer run over the active slots (R122, R125). -/
theorem mix_eq (h : SamePool vs ws) : mix vs = mix ws := by
  have hsum : mixSum vs = mixSum ws := by
    rw [mixSum_eq, mixSum_eq]
    exact (h.active.map _).sum_eq
  have hcount : activeCount vs = activeCount ws := by
    rw [activeCount_eq, activeCount_eq, h.active.length_eq]
  rw [mix, mix, hsum, hcount]

/-! ### What the operations keep -/

theorem map_oscillate (h : SamePool vs ws) : SamePool (vs.map oscillate) (ws.map oscillate) where
  length := by simpa using h.length
  active := by simpa only [filter_active_map_oscillate] using h.active.map oscillate
  exclusive := by
    have := h.exclusive
    simpa [Exclusive, List.pairwise_map] using this
  small := by simpa using h.small

theorem silenceNote (h : SamePool vs ws) (noteId : Int) :
    SamePool (silenceNote noteId vs) (silenceNote noteId ws) where
  length := by simpa using h.length
  active := by
    rw [filter_active_silenceNote, filter_active_silenceNote]
    refine h.active.eraseP _ (((exclusive_iff vs).mp h.exclusive).imp ?_)
    intro v w hne hv hw
    exact hne (noteId_eq_of_sounds ((plays_iff noteId v).mp hv) ((plays_iff noteId w).mp hw))
  exclusive := by
    rw [exclusive_iff, filter_active_silenceNote]
    exact ((exclusive_iff vs).mp h.exclusive).sublist List.eraseP_sublist
  small := by simpa using h.small

/-- A voice put in a free slot of each table, its note in no slot yet. -/
theorem set (h : SamePool vs ws) {i j : Nat} {a b v : Voice} (hi : vs[i]? = some a) (ha : a.active = false)
    (hj : ws[j]? = some b) (hb : b.active = false) (hv : v.active = true)
    (hnew : ∀ w ∈ vs, w.active = true → w.noteId ≠ v.noteId) : SamePool (vs.set i v) (ws.set j v) where
  length := by simpa using h.length
  active := (filter_active_set hi ha hv).trans ((h.active.cons v).trans (filter_active_set hj hb hv).symm)
  exclusive := by
    rw [exclusive_iff, (filter_active_set hi ha hv).pairwise_iff Ne.symm, List.pairwise_cons]
    refine ⟨fun w hw => ?_, (exclusive_iff vs).mp h.exclusive⟩
    obtain ⟨hmem, hactive⟩ := List.mem_filter.mp hw
    exact (hnew w hmem hactive).symm
  small := by simpa using h.small

end SamePool

/-! ### NOTE_ON, by what the scan for a free slot finds -/

/-- NOTE_ON rejects the note: no tone, or no amplitude (R107). -/
def noteRejected (cfg : Config) (noteId velocity : Int) : Bool :=
  (freqOf cfg noteId).isNonPositive || ampOf cfg (clampVelocity velocity) == 0

theorem noteOn_exhausted {noteId : Int} (velocity : Int) {s : State}
    (h : findFree (silenceNote noteId s.voices) = none) :
    noteOn noteId velocity s = report .voicePoolExhausted (noteOff noteId s) := by
  simp [noteOn, noteOff, h]

theorem noteOn_free {noteId : Int} (velocity : Int) {s : State} {j : Nat}
    (h : findFree (silenceNote noteId s.voices) = some j) : noteOn noteId velocity s =
      if noteRejected s.cfg noteId velocity then report .invalidNoteParameters (noteOff noteId s)
      else setVoices ((silenceNote noteId s.voices).set j
        (newVoice s.cfg (silenceNote noteId s.voices) noteId (ampOf s.cfg (clampVelocity velocity)))) s := by
  simp only [noteOn, noteOff, setVoices_voices, h]
  rfl

/-! ### The state -/

/-- The tables of two states of one rate. -/
def SlotTwins (rate : Nat) (vs : List Voice) (rate' : Nat) (ws : List Voice) : Prop := rate' = rate ∧ SamePool vs ws

theorem samePools_iff (s t : State) : SamePools s t ↔ Twins SlotTwins s t := by
  constructor
  · rintro ⟨⟨hperm, hrest⟩, hexcl, hsmall⟩
    obtain ⟨hlen, hactive⟩ := (map_visible_perm_iff _ _).mp hperm
    refine ⟨t.voices, s.cfg.sampleRate, ?_, rfl, hlen, hactive, hexcl, hsmall⟩
    exact (congrArg (setVoices t.voices) hrest).symm
  · rintro ⟨ws, rate, rfl, rfl, h⟩
    exact ⟨⟨(map_visible_perm_iff _ _).mpr ⟨h.length, h.active⟩, rfl⟩, h.exclusive, h.small⟩

theorem noteOff_keepsSlotTwins (noteId : Int) : KeepsTwins SlotTwins (noteOff noteId) := by
  rintro s - ⟨ws, rate, rfl, rfl, h⟩
  exact ⟨silenceNote noteId ws, s.cfg.sampleRate, rfl, rfl, h.silenceNote noteId⟩

/-- NOTE_ON finds a free slot in both tables or in none, rejects the note for both or for none, and writes one and the
same voice (R103, R107, R108). -/
theorem noteOn_keepsSlotTwins (noteId velocity : Int) : KeepsTwins SlotTwins (noteOn noteId velocity) := by
  intro s t h
  have hoff := noteOff_keepsSlotTwins noteId s t h
  obtain ⟨ws, rate, rfl, rfl, hpool⟩ := h
  have hsil := hpool.silenceNote noteId
  rcases findFree_cases (silenceNote noteId s.voices) with ⟨hf, hall⟩ | ⟨i, a, hf, hi, ha, -⟩
  · rw [noteOn_exhausted velocity hf, noteOn_exhausted velocity (findFree_none (hsil.all_active hall))]
    exact hoff.report _
  · rcases findFree_cases (silenceNote noteId ws) with ⟨-, hall⟩ | ⟨j, b, hg, hj, hb, -⟩
    · have := hsil.symm.all_active hall a (List.mem_of_getElem? hi)
      simp [ha] at this
    · rw [noteOn_free velocity hf, noteOn_free velocity (s := twin ws s.cfg.sampleRate s) hg]
      change Twins SlotTwins _ (if noteRejected s.cfg noteId velocity then _ else _)
      split
      · exact hoff.report _
      · refine ⟨(silenceNote noteId ws).set j (newVoice s.cfg (silenceNote noteId s.voices) noteId _),
          s.cfg.sampleRate, ?_, rfl, hsil.set hi ha hj hb rfl ?_⟩
        · rw [hsil.newVoice_eq]
          rfl
        · exact noteRegister_unheld hsil.small (not_sounds_silenceNote hpool.exclusive noteId)

/-- The tables after RENDER show the same voices, and the samples are the same (R125). -/
theorem render_slotTwins {s t : State} (h : Twins SlotTwins s t) : Twins SlotTwins (render s) (render t) := by
  obtain ⟨ws, rate, rfl, rfl, hpool⟩ := h
  refine ⟨ws.map oscillate, s.cfg.sampleRate, ?_, rfl, hpool.map_oscillate⟩
  unfold render
  rw [hpool.map_oscillate.mix_eq]
  rfl

theorem resetBlock_slotTwins {s t : State} (hc : s.cfg.numVoices ≤ 255) (h : Twins SlotTwins s t) :
    Twins SlotTwins (resetBlock s) (resetBlock t) := by
  obtain ⟨ws, rate, rfl, rfl, -⟩ := h
  exact ⟨_, s.cfg.sampleRate, rfl, rfl, SamePool.replicate_reset hc⟩

/-- R6 allows 255 voices at most. -/
theorem numVoices_le_of_inRange {cfg : Config} (h : configInRange cfg = true) : cfg.numVoices ≤ 255 := by
  simp only [configInRange, Bool.and_eq_true, decide_eq_true_eq] at h
  tauto

/-- One instruction, of two states with the same voices in whatever slots. -/
theorem exec_slotTwins (i : Instr) {s t : State} (hc : s.cfg.numVoices ≤ 255) (h : Twins SlotTwins s t) :
    AgreeingOutcomes (Twins SlotTwins) (exec i s) (exec i t) :=
  exec_twins i h noteOff_keepsSlotTwins (fun _ => noteOn_keepsSlotTwins) (fun _ => render_slotTwins h)
    (fun _ => resetBlock_slotTwins hc h)

/-- One step: the same operation is selected for both, and it agrees. -/
theorem step_slotTwins {s t : State} (h : Twins SlotTwins s t) :
    AgreeingOutcomes (Twins SlotTwins) (step s) (step t) := by
  obtain ⟨ws, rate, rfl, rfl, hpool⟩ := id h
  have hcfg : (twin ws s.cfg.sampleRate s).cfg = s.cfg := rfl
  have hlaunch : (twin ws s.cfg.sampleRate s).launch = s.launch := rfl
  unfold step
  rw [hcfg, hlaunch, fetch_twin]
  split
  · next hc =>
    cases s.launch with
    | guardFailed => exact ⟨ws, s.cfg.sampleRate, rfl, rfl, hpool⟩
    | aborted => exact h
    | guardOk =>
      have hfetch : Twins SlotTwins (fetch s).2 (twin ws s.cfg.sampleRate (fetch s).2) := by
        rw [fetch_state]
        exact ⟨ws, s.cfg.sampleRate, rfl, rfl, hpool⟩
      cases hd : decode (fetch s).1 with
      | error e => rfl
      | ok i => exact exec_slotTwins i (by rw [fetch_state]; exact numVoices_le_of_inRange hc) hfetch
  · rfl

/-- Settles O55: the selected operation is the same, and each operation reads of the voice table only what the active
slots hold, in no order. -/
theorem slotPlacementNeverShows : Obligations.SlotPlacementNeverShows := by
  intro s t h
  rw [samePools_iff] at h
  exact (step_slotTwins h).imp fun s' t' => (samePools_iff s' t').mpr

end Sys2Proof.Machine
end

section
/-! SUPPORT. Two states at two rates, alike but for the half-periods and countdowns of their slots (R147): `SAMPLE_RATE`
gives NOTE_ON these two fields of the slot it writes, and nothing else. -/

namespace Sys2Proof.Machine

/-! ### The table less what `halfPeriodOf` gave it -/

theorem map_lessPeriod_silenceNote (noteId : Int) (vs : List Voice) :
    (silenceNote noteId vs).map Voice.lessPeriod = silenceNote noteId (vs.map Voice.lessPeriod) := by
  induction vs with
  | nil => rfl
  | cons v vs ih =>
    have hplays : v.lessPeriod.plays noteId = v.plays noteId := rfl
    rw [List.map_cons, silenceNote_cons, silenceNote_cons, hplays]
    split
    · rfl
    · rw [List.map_cons, ih]

theorem findFree_map_lessPeriod (vs : List Voice) : findFree (vs.map Voice.lessPeriod) = findFree vs :=
  List.findIdx?_map

theorem soundingNotes_map_lessPeriod (vs : List Voice) :
    soundingNotes (vs.map Voice.lessPeriod) = soundingNotes vs := by
  apply soundingNotes_congr
  simp [Voice.lessPeriod]

/-! ### Tables at two rates -/

/-- The tables differ at most in what `halfPeriodOf` gave them. -/
def PeriodTwins (_ : Nat) (vs : List Voice) (_ : Nat) (ws : List Voice) : Prop :=
  vs.map Voice.lessPeriod = ws.map Voice.lessPeriod

/-- The tables are the same and the second one's rate is the given one. -/
def RateTwins (rate : Nat) (_ : Nat) (vs : List Voice) (rate' : Nat) (ws : List Voice) : Prop := rate' = rate ∧ ws = vs

theorem sameButPeriods_of_twins {s t : State} (h : Twins PeriodTwins s t) : SameButPeriods s t := by
  obtain ⟨ws, rate, rfl, hsame⟩ := h
  exact congrArg (fun vs => atRate 0 (setVoices vs s)) hsame

theorem twins_rateTwins_iff (rate : Nat) (s t : State) : Twins (RateTwins rate) s t ↔ t = atRate rate s := by
  constructor
  · rintro ⟨ws, rate, rfl, rfl, rfl⟩
    rfl
  · rintro rfl
    exact ⟨s.voices, rate, rfl, rfl, rfl⟩

theorem twins_periodTwins_atRate (rate : Nat) (s : State) : Twins PeriodTwins s (atRate rate s) :=
  ⟨s.voices, rate, rfl, rfl⟩

theorem noteOff_keepsPeriodTwins (noteId : Int) : KeepsTwins PeriodTwins (noteOff noteId) := by
  rintro s - ⟨ws, rate, rfl, h⟩
  refine ⟨silenceNote noteId ws, rate, rfl, ?_⟩
  change (silenceNote noteId s.voices).map _ = _
  rw [map_lessPeriod_silenceNote, map_lessPeriod_silenceNote, h]

/-- NOTE_ON takes the same slot at both rates, and writes it alike but for the half-period and the countdown. -/
theorem noteOn_keepsPeriodTwins (noteId velocity : Int) : KeepsTwins PeriodTwins (noteOn noteId velocity) := by
  intro s t h
  have hoff := noteOff_keepsPeriodTwins noteId s t h
  obtain ⟨ws, rate, rfl, h⟩ := h
  have hsil : (silenceNote noteId s.voices).map Voice.lessPeriod = (silenceNote noteId ws).map Voice.lessPeriod := by
    rw [map_lessPeriod_silenceNote, map_lessPeriod_silenceNote, h]
  have hfree : findFree (silenceNote noteId s.voices) = findFree (silenceNote noteId ws) := by
    rw [← findFree_map_lessPeriod, hsil, findFree_map_lessPeriod]
  have hnotes : soundingNotes (silenceNote noteId s.voices) = soundingNotes (silenceNote noteId ws) := by
    rw [← soundingNotes_map_lessPeriod, hsil, soundingNotes_map_lessPeriod]
  cases hf : findFree (silenceNote noteId s.voices) with
  | none =>
    rw [noteOn_exhausted velocity hf, noteOn_exhausted velocity (s := twin ws rate s) (hfree.symm.trans hf)]
    exact hoff.report _
  | some j =>
    rw [noteOn_free velocity hf, noteOn_free velocity (s := twin ws rate s) (hfree.symm.trans hf)]
    change Twins PeriodTwins _ (if noteRejected s.cfg noteId velocity then _ else _)
    split
    · exact hoff.report _
    · refine ⟨(silenceNote noteId ws).set j (newVoice (twin ws rate s).cfg (silenceNote noteId ws) noteId _),
        rate, rfl, ?_⟩
      change ((silenceNote noteId s.voices).set j _).map _ = ((silenceNote noteId ws).set j _).map _
      rw [List.map_set, List.map_set, hsil]
      congr 1
      simp only [Voice.lessPeriod, newVoice, noteRegister, hnotes]
      rfl

theorem noteOff_keepsRateTwins (rate : Nat) (noteId : Int) : KeepsTwins (RateTwins rate) (noteOff noteId) := by
  rintro s - ⟨ws, rate, rfl, rfl, rfl⟩
  exact ⟨silenceNote noteId s.voices, rate, rfl, rfl, rfl⟩

/-! ### Every instruction -/

/-- An instruction that runs no NOTE_ON does the same at every rate. -/
theorem exec_atRate {i : Instr} (h : mayNoteOn i = false) (s : State) (rate : Nat) :
    AgreeingOutcomes (fun t u => u = atRate rate t) (exec i s) (exec i (atRate rate s)) := by
  have hagree : AgreeingOutcomes (Twins (RateTwins rate)) (exec i s) (exec i (atRate rate s)) := by
    refine exec_twins i ((twins_rateTwins_iff rate s _).mpr rfl) (noteOff_keepsRateTwins rate) ?_ ?_ ?_
    · simp [h]
    · exact fun _ => (twins_rateTwins_iff rate _ _).mpr rfl
    · exact fun _ => (twins_rateTwins_iff rate _ _).mpr rfl
  exact hagree.imp fun t u => (twins_rateTwins_iff rate t u).mp

/-- Every instruction does the same at every rate but for half-periods and countdowns. -/
theorem exec_sameButPeriods (i : Instr) (s : State) (rate : Nat) :
    AgreeingOutcomes SameButPeriods (exec i s) (exec i (atRate rate s)) := by
  cases hi : mayNoteOn i with
  | false =>
    refine (exec_atRate hi s rate).imp ?_
    rintro t - rfl
    rfl
  | true =>
    have hagree : AgreeingOutcomes (Twins PeriodTwins) (exec i s) (exec i (atRate rate s)) := by
      refine exec_twins i (twins_periodTwins_atRate rate s) noteOff_keepsPeriodTwins
        (fun _ => noteOn_keepsPeriodTwins) ?_ ?_
      · rintro rfl
        cases hi
      · rintro rfl
        cases hi
    exact hagree.imp fun t u => sameButPeriods_of_twins

/-- Settles O57: an instruction that can run a NOTE_ON writes half-periods and countdowns that depend on the rate, every
other one reads no rate. -/
theorem rateEntersOnlyByTheHalfPeriod : Obligations.RateEntersOnlyByTheHalfPeriod := by
  intro i s rate
  refine ⟨exec_sameButPeriods i s rate, fun hnoteOn hevOn hupdate => exec_atRate ?_ s rate⟩
  cases i with
  | noteOn n v => exact absurd rfl (hnoteOn n v)
  | evOn d n v => exact absurd rfl (hevOn d n v)
  | update now => exact absurd rfl (hupdate now)
  | _ => rfl

end Sys2Proof.Machine
end

section
/-! SUPPORT. What is fixed of the numeric functions in every build (R104, R106, R113, R163; logs 3, 30). -/

namespace Sys2Proof.Machine

/-! ### ampOf -/

theorem clampVelocity_le (velocity : Int) : clampVelocity velocity ≤ 127 := by
  rw [clampVelocity, clamp_eq (by decide)]
  omega

theorem clampVelocity_loud {velocity : Int} (h : 127 ≤ velocity) : clampVelocity velocity = 127 := by
  rw [clampVelocity, clamp_eq (by decide)]
  omega

theorem clampVelocity_mono : Monotone clampVelocity := by
  intro v w h
  rw [clampVelocity, clampVelocity, clamp_eq (by decide), clamp_eq (by decide)]
  omega

theorem referenceAmp_mono (aMax : Nat) : Monotone (referenceAmp aMax) := by
  intro v w h
  unfold referenceAmp roundDiv
  gcongr

theorem referenceAmp_max (aMax : Nat) : referenceAmp aMax 127 = aMax := by
  unfold referenceAmp roundDiv
  omega

theorem referenceAmp_eq_zero_iff (aMax vel : Nat) : referenceAmp aMax vel = 0 ↔ 2 * vel * aMax < 127 := by
  rw [referenceAmp, roundDiv, Nat.div_eq_zero_iff, mul_assoc]
  omega

theorem ampOf_reference_build {cfg : Config} (h : cfg.numerics = .reference) : ampOf cfg = referenceAmp cfg.aMax := by
  funext vel
  simp [ampOf, h]

/-- What another build's function is at an `A_MAX` where R112 fixes only its properties. -/
def otherAmp (aMax vel : Nat) : Nat :=
  if referenceAmp aMax vel = 0 then 0
  else if vel = 127 then aMax
  else min (max 1 (runningMax (Config.implAmpOf aMax) vel)) aMax

/-- In every build `ampOf` is the reference one, or another one away from the reference `A_MAX`. -/
theorem ampOf_cases (cfg : Config) :
    ampOf cfg = referenceAmp cfg.aMax ∨ cfg.aMax ≠ 32767 ∧ ampOf cfg = otherAmp cfg.aMax := by
  cases hn : cfg.numerics with
  | reference => exact .inl (ampOf_reference_build hn)
  | implementation =>
    by_cases ha : cfg.aMax = 32767
    · left
      funext vel
      simp [ampOf, hn, ha, Config.reference, eq_comm]
    · refine .inr ⟨ha, funext fun vel => ?_⟩
      by_cases hv : vel = 127
      · simp [ampOf, otherAmp, hn, hv, referenceAmp_max]
      · simp [ampOf, otherAmp, hn, ha, hv, Config.reference]

theorem otherAmp_mono (aMax : Nat) {vel louder : Nat} (hle : vel ≤ louder) (h : louder ≤ 127) :
    otherAmp aMax vel ≤ otherAmp aMax louder := by
  have href := referenceAmp_mono aMax hle
  unfold otherAmp
  by_cases h0 : referenceAmp aMax vel = 0
  · simp [h0]
  · rw [if_neg h0, if_neg (by omega : referenceAmp aMax louder ≠ 0)]
    by_cases hmax : louder = 127
    · rw [if_pos hmax]
      split
      · exact le_rfl
      · exact min_le_right _ _
    · rw [if_neg hmax, if_neg (by omega)]
      exact min_le_min_right _ (max_le_max_left _ (runningMax_mono _ hle))

theorem ampOf_mono (cfg : Config) {vel louder : Nat} (hle : vel ≤ louder) (h : louder ≤ 127) :
    ampOf cfg vel ≤ ampOf cfg louder := by
  rcases ampOf_cases cfg with heq | ⟨-, heq⟩ <;> rw [heq]
  · exact referenceAmp_mono _ hle
  · exact otherAmp_mono _ hle h

theorem ampOf_max {cfg : Config} (ha : 1 ≤ cfg.aMax) : ampOf cfg 127 = cfg.aMax := by
  rcases ampOf_cases cfg with heq | ⟨-, heq⟩ <;> rw [heq]
  · exact referenceAmp_max _
  · rw [otherAmp, referenceAmp_max, if_neg (by omega), if_pos rfl]

theorem ampOf_le {cfg : Config} (ha : 1 ≤ cfg.aMax) {vel : Nat} (h : vel ≤ 127) : ampOf cfg vel ≤ cfg.aMax :=
  (ampOf_mono cfg h le_rfl).trans_eq (ampOf_max ha)

theorem ampOf_eq_zero_iff {cfg : Config} (ha : 1 ≤ cfg.aMax) (vel : Nat) :
    ampOf cfg vel = 0 ↔ 2 * vel * cfg.aMax < 127 := by
  rw [← referenceAmp_eq_zero_iff]
  rcases ampOf_cases cfg with heq | ⟨-, heq⟩ <;> rw [heq]
  unfold otherAmp
  split
  · next h0 => simp [h0]
  · next h0 => split <;> omega

theorem ampOf_reference_aMax {cfg : Config} (ha : cfg.aMax = 32767) : ampOf cfg = ampOf Config.reference := by
  rcases ampOf_cases cfg with heq | ⟨hne, -⟩
  · rw [heq, ha]
    rfl
  · exact absurd ha hne

/-! ### halfPeriodOf -/

/-- The twelfth power of the frequency ratio, without a real number (R105). -/
theorem two_rpow_pow_twelve (n : Int) :
    ((2 : ℝ) ^ (((n : ℝ) - 69) / 12)) ^ 12 * 2 ^ (69 - n).toNat = 2 ^ (n - 69).toNat := by
  have hpow : ((2 : ℝ) ^ (((n : ℝ) - 69) / 12)) ^ 12 = 2 ^ (n - 69) := by
    rw [← Real.rpow_natCast, ← Real.rpow_mul (by norm_num), ← Real.rpow_intCast]
    push_cast
    congr 1
    ring
  rw [hpow, ← zpow_natCast, ← zpow_natCast, ← zpow_add₀ (by norm_num)]
  congr 1
  omega

/-- The integer test is the one on the real quotient: rounding reaches `k` (R106). -/
theorem halfPeriodAtLeast_iff (sampleRate : Nat) (n : Int) {k : Nat} (hk : 1 ≤ k) :
    halfPeriodAtLeast sampleRate n k = true ↔
      (k : ℝ) ≤ sampleRate / (2 * (440 * (2 : ℝ) ^ (((n : ℝ) - 69) / 12))) + 1 / 2 := by
  have hpow := two_rpow_pow_twelve n
  have hpos : 0 < (2 : ℝ) ^ (((n : ℝ) - 69) / 12) := by positivity
  set f : ℝ := (2 : ℝ) ^ (((n : ℝ) - 69) / 12)
  have hcast : (((2 * k - 1 : ℕ) : ℝ)) = 2 * k - 1 := by
    rw [Nat.cast_sub (by omega)]
    push_cast
    ring
  have hlin : (k : ℝ) ≤ sampleRate / (2 * (440 * f)) + 1 / 2 ↔ ((2 * k - 1 : ℕ) : ℝ) * 440 * f ≤ sampleRate := by
    rw [← sub_le_iff_le_add, le_div_iff₀ (by positivity), hcast]
    constructor <;> intro h <;> linarith
  have hroot : ((2 * k - 1 : ℕ) : ℝ) * 440 * f ≤ sampleRate ↔
      (((2 * k - 1 : ℕ) : ℝ) * 440 * f) ^ 12 ≤ (sampleRate : ℝ) ^ 12 :=
    (pow_le_pow_iff_left₀ (by positivity) (by positivity) (by norm_num)).symm
  have hscale : (((2 * k - 1 : ℕ) : ℝ) * 440 * f) ^ 12 * 2 ^ (69 - n).toNat =
      (((2 * k - 1 : ℕ) : ℝ) * 440) ^ 12 * 2 ^ (n - 69).toNat := by
    rw [mul_pow _ f, mul_assoc, hpow]
  rw [hlin, hroot, ← mul_le_mul_iff_left₀ (by positivity : (0 : ℝ) < 2 ^ (69 - n).toNat), hscale, halfPeriodAtLeast,
    decide_eq_true_eq]
  exact_mod_cast Iff.rfl

theorem atLeastOne_pos (h : Word) : 1 ≤ (atLeastOne h).toNat := by
  unfold atLeastOne
  split
  · decide
  · next h0 => exact Nat.one_le_iff_ne_zero.mpr fun h' => h0 (BitVec.eq_of_toNat_eq h')

/-- Where the quotient fits, the search ends within the register. -/
theorem exactHalfPeriod_le {sampleRate : Nat} {noteId : Int} (h : halfPeriodAtLeast sampleRate noteId 65536 = false) :
    exactHalfPeriod sampleRate noteId ≤ 65535 := by
  have hzero : halfPeriodAtLeast sampleRate noteId 0 = true := by simp [halfPeriodAtLeast]
  obtain ⟨-, -, -, hlt⟩ := greatestBelow_spec 16 hzero h
  simp only [exactHalfPeriod]
  omega

theorem referenceHalfPeriod_pos (sampleRate : Nat) (noteId : Int) :
    1 ≤ (referenceHalfPeriod sampleRate noteId).toNat := by
  unfold referenceHalfPeriod
  split
  · exact atLeastOne_pos _
  · next h =>
    have := exactHalfPeriod_le (Bool.not_eq_true _ ▸ h)
    rw [BitVec.toNat_ofNat, Nat.mod_eq_of_lt (by omega)]
    exact le_max_left _ _

theorem halfPeriodOf_pos (cfg : Config) (noteId : Int) : 1 ≤ (halfPeriodOf cfg noteId).toNat := by
  unfold halfPeriodOf
  cases cfg.numerics with
  | reference => exact referenceHalfPeriod_pos _ _
  | implementation =>
    simp only
    split
    · exact referenceHalfPeriod_pos _ _
    · exact atLeastOne_pos _

theorem halfPeriodOf_reference_rate {cfg : Config} (h : cfg.sampleRate = 44100) (noteId : Nat) :
    halfPeriodOf cfg noteId = halfPeriodOf Config.reference noteId := by
  have href : halfPeriodOf Config.reference noteId = referenceHalfPeriod 44100 noteId := rfl
  rw [href]
  unfold halfPeriodOf
  cases cfg.numerics <;> simp [h, Config.reference]

/-! ### delayOf -/

/-- A number whose denominator is 2 is an exact half. -/
theorem fract_of_den_two {x : ℚ} (h : x.den = 2) : Int.fract x = 1 / 2 := by
  have hodd : x.num % 2 = 1 := by
    have hcop := x.reduced
    rw [h, Nat.coprime_two_right, Int.natAbs_odd] at hcop
    exact Int.odd_iff.mp hcop
  have hnum : (x.num : ℚ) = 2 * (x.num / 2 : ℤ) + 1 := by exact_mod_cast (by omega : x.num = 2 * (x.num / 2) + 1)
  have hx : x = (x.num : ℚ) / 2 := by conv_lhs => rw [← Rat.num_div_den x, h, Nat.cast_ofNat]
  rw [Int.fract_eq_iff]
  exact ⟨by norm_num, by norm_num, x.num / 2, by linarith⟩

/-- An exact half from 0 up rounds to 1 or more. -/
theorem roundRat_pos_of_half {x : ℚ} (h0 : 0 ≤ x) (h : Int.fract x = 1 / 2) : 1 ≤ roundRat x := by
  have hfloor : (0 : ℚ) ≤ ⌊x⌋ := by exact_mod_cast Int.floor_nonneg.mpr h0
  have : (1 : ℤ) ≤ roundRat x := by
    rw [roundRat_floor h0, Int.le_floor]
    have := Int.floor_add_fract x
    push_cast
    linarith
  exact_mod_cast this

/-- `delayOf` is the rounded product, or at an exact half one less. -/
theorem delayOf_cases (cfg : Config) {millisPerTick : ℚ} (hm : 0 ≤ millisPerTick) (d : Word) :
    delayOf cfg millisPerTick d = roundRat (d.toNat * millisPerTick) ∨
    Int.fract ((d.toNat : ℚ) * millisPerTick) = 1 / 2 ∧
      delayOf cfg millisPerTick d + 1 = roundRat (d.toNat * millisPerTick) := by
  unfold delayOf
  cases cfg.numerics with
  | reference => exact .inl rfl
  | implementation =>
    rcases roundHalf_cases (Config.implHalfRoundsUp d.toNat millisPerTick) (d.toNat * millisPerTick) with
      heq | ⟨hden, heq⟩
    · exact .inl heq
    · have hhalf := fract_of_den_two hden
      have := roundRat_pos_of_half (by positivity) hhalf
      exact .inr ⟨hhalf, by simp only [heq]; omega⟩

theorem delayOf_zero (cfg : Config) (millisPerTick : ℚ) : delayOf cfg millisPerTick 0 = 0 := by
  have h0 : roundRat 0 = 0 := by decide
  unfold delayOf
  cases cfg.numerics <;> simp [roundHalf, h0]

theorem delayOf_le (cfg : Config) {millisPerTick : ℚ} (hm : 0 ≤ millisPerTick) (d : Word) :
    (delayOf cfg millisPerTick d : ℤ) ≤ ⌊65535 * millisPerTick + 1 / 2⌋ := by
  have hd : (d.toNat : ℚ) ≤ 65535 := by exact_mod_cast Nat.le_of_lt_succ d.isLt
  have hround : (roundRat (d.toNat * millisPerTick) : ℤ) ≤ ⌊65535 * millisPerTick + 1 / 2⌋ := by
    rw [roundRat_floor (by positivity)]
    gcongr
  rcases delayOf_cases cfg hm d with heq | ⟨-, heq⟩ <;> omega

/-- Settles O54, from what another build's `ampOf`, `halfPeriodOf` and `delayOf` share with the reference ones. -/
theorem numericFunctionsKeepTheirRanges : Obligations.NumericFunctionsKeepTheirRanges := by
  intro cfg hc
  have ha : 1 ≤ cfg.aMax := by
    simp only [configInRange, Bool.and_eq_true, decide_eq_true_eq] at hc
    tauto
  refine ⟨fun velocity => ⟨?_, ?_, ?_, ?_⟩, ?_, halfPeriodOf_pos cfg, halfPeriodOf_reference_rate,
    delayOf_zero cfg, fun m d hm => ⟨delayOf_le cfg hm d, delayOf_cases cfg hm d⟩⟩
  · exact ampOf_le ha (clampVelocity_le velocity)
  · intro h
    rw [clampVelocity_loud h, ampOf_max ha]
  · exact ampOf_eq_zero_iff ha _
  · exact fun louder h => ampOf_mono cfg (clampVelocity_mono h) (clampVelocity_le louder)
  · exact fun h velocity => congrFun (ampOf_reference_aMax h) _

end Sys2Proof.Machine
end

section
/-! SUPPORT. The runs a model refuses (93_implementation_defined.md U1, U8, U9, U13, U17): what each test of a
refusal says, and that no other operation answers the refusal of a configuration. -/

namespace Sys2Proof.Machine

/-! ### The configuration (R6, U13) -/

/-- Note 0's half-period does not fit the register (R6). -/
theorem halfPeriodAtLeast_zero_iff (sampleRate : Nat) : halfPeriodAtLeast sampleRate 0 65536 = true ↔
    65535 < ⌊(sampleRate : ℝ) / (2 * (440 * (2 : ℝ) ^ (((0 : ℝ) - 69) / 12))) + 1 / 2⌋ := by
  rw [halfPeriodAtLeast_iff _ _ (by norm_num), ← Int.add_one_le_iff, Int.le_floor]
  norm_num

theorem not_configInRange_iff (cfg : Config) : configInRange cfg = false ↔
    cfg.numVoices = 0 ∨ 255 < cfg.numVoices ∨ cfg.aMax = 0 ∨ 32767 < cfg.aMax ∨ cfg.sampleRate = 0 ∨
      halfPeriodAtLeast cfg.sampleRate 0 65536 = true ∨ cfg.tpqn = 0 ∨ cfg.defaultBpm = 0 := by
  simp only [configInRange, Bool.and_eq_false_iff, decide_eq_false_iff_not, Bool.not_eq_false']
  cases halfPeriodAtLeast cfg.sampleRate 0 65536 with
  | true => simp
  | false => simp only [Bool.false_eq_true, false_or, or_false]; omega

theorem reschedule_ne_refused (s : State) (r : Refusal) : reschedule s ≠ .refused r := by
  rcases reschedule_cases s with ⟨-, h⟩ | ⟨-, d, -, h⟩ | ⟨-, -, h⟩ <;> simp [h]

theorem processRecord_ne_configurationOutOfRange (s : State) : processRecord s ≠ .refused .configurationOutOfRange := by
  rcases processRecord_cases s with ⟨-, h⟩ | ⟨w, e, -, -, h⟩ | ⟨w, c, -, -, h⟩ <;> rw [h]
  · simp
  · simp
  · exact reschedule_ne_refused _ _

theorem poll_ne_refused {event : State → Host.Outcome State Fault Refusal} {s : State} {r : Refusal}
    (hevent : event s ≠ .refused r) : poll event s ≠ .refused r := by
  rcases poll_cases event s with ⟨-, h⟩ | ⟨-, -, h⟩ | ⟨-, -, -, h⟩ | ⟨-, -, -, h⟩ <;> rw [h]
  · simp
  · simp
  · simp
  · exact hevent

/-- No instruction answers the refusal of a configuration. -/
theorem exec_ne_configurationOutOfRange (i : Instr) (s : State) : exec i s ≠ .refused .configurationOutOfRange := by
  cases i with
  | noteOff n => simp [exec, execNoteOff]
  | noteOnV0 n => simp [exec, execNoteOnV0]
  | noteOn n v => simp [exec, execNoteOn]
  | render => simp only [exec, execRender]; split <;> simp
  | emit => simp only [exec, execEmit]; split <;> simp
  | hold => simp only [exec, execHold]; split <;> simp
  | reset => simp [exec, execReset]
  | evOff d n => exact poll_ne_refused (reschedule_ne_refused _ _)
  | evOnV0 d n => exact poll_ne_refused (reschedule_ne_refused _ _)
  | evOn d n v => exact poll_ne_refused (reschedule_ne_refused _ _)
  | loadSong p c bpm =>
    simp only [exec, execLoadSong]
    split
    · simp
    · split
      · simp
      · split <;> simp
  | start now =>
    simp only [exec, execStart]
    split
    · simp
    · split
      · simp
      · split
        · simp
        · split <;> simp
  | stop => simp only [exec, execStop]; split <;> simp
  | update now =>
    simp only [exec, execUpdate]
    split
    · simp
    · exact poll_ne_refused (processRecord_ne_configurationOutOfRange _)

/-- A step is refused for its configuration just when that is outside R6. -/
theorem step_refused_configuration_iff (s : State) :
    step s = .refused .configurationOutOfRange ↔ configInRange s.cfg = false := by
  constructor
  · intro h
    by_contra hin
    rw [Bool.not_eq_false] at hin
    cases hl : s.launch with
    | guardFailed => simp [step, hin, hl] at h
    | aborted => simp [step, hin, hl] at h
    | guardOk =>
      rw [step_running ⟨hin, hl⟩] at h
      split at h
      · exact exec_ne_configurationOutOfRange _ _ h
      · simp at h
  · intro h
    simp [step, h]

/-! ### Reserved types and numbers that are none (U1, U9) -/

/-- A command word of type 2 or more has a reserved type (R64). -/
theorem commandOf_reserved {w : BitVec 32} (h : 2 ≤ (commandType w).toNat) :
    commandOf w = .error (.reservedType (commandType w)) := by
  rcases commandOf_cases w with ⟨ht, -⟩ | ⟨ht, -⟩ | ⟨ht, -⟩ | ⟨-, -, he⟩
  · simp [ht] at h
  · simp [ht] at h
  · simp [ht] at h
  · exact he

/-- A command word of type 0 or 1 stands for a command (R62). -/
theorem commandOf_command {w : BitVec 32} (h : (commandType w).toNat < 2) : ∃ c, commandOf w = .ok c := by
  rcases commandOf_cases w with ⟨-, -, hc⟩ | ⟨-, -, hc⟩ | ⟨-, hc⟩ | ⟨h0, h1, -⟩
  · exact ⟨_, hc⟩
  · exact ⟨_, hc⟩
  · exact ⟨_, hc⟩
  · have h0' : (commandType w).toNat ≠ 0 := fun h' => h0 (BitVec.eq_of_toNat_eq h')
    have h1' : (commandType w).toNat ≠ 1 := fun h' => h1 (BitVec.eq_of_toNat_eq h')
    omega

theorem binary32Value_none {bpm : BitVec 32} (h : bpm.toNat / 2 ^ 23 % 256 = 255) : binary32Value bpm = none := by
  have hexp : (bpm.extractLsb' 23 8).toNat = 255 := by
    rw [BitVec.extractLsb'_toNat, Nat.shiftRight_eq_div_pow]
    exact h
  simp [binary32Value, hexp]

/-! ### Records (U17) -/

theorem readDelta_none {s : State} {k : Nat}
    (h : readByte s.stream (s.dataPointer + 6 * k) = none ∨ readByte s.stream (s.dataPointer + 6 * k + 1) = none) :
    readDelta s k = none := by
  unfold readDelta recordBase
  split
  · next h0 h1 => simp [h0, h1] at h
  · rfl

/-- The same for the record after that one. -/
theorem readDelta_succ_none {s : State} {k : Nat} (h : readByte s.stream (s.dataPointer + 6 * k + 6) = none ∨
    readByte s.stream (s.dataPointer + 6 * k + 7) = none) : readDelta s (k + 1) = none := by
  apply readDelta_none
  rwa [Nat.mul_succ, ← Nat.add_assoc]

theorem readCommand_none {s : State} {k : Nat}
    (h : readByte s.stream (s.dataPointer + 6 * k + 2) = none ∨ readByte s.stream (s.dataPointer + 6 * k + 3) = none ∨
      readByte s.stream (s.dataPointer + 6 * k + 4) = none) : readCommand s k = none := by
  unfold readCommand recordBase
  split
  · next h2 h3 h4 => simp [h2, h3, h4] at h
  · rfl

theorem readCommand_some {s : State} {k : Nat} {type noteId velocity : Byte}
    (h2 : readByte s.stream (s.dataPointer + 6 * k + 2) = some type)
    (h3 : readByte s.stream (s.dataPointer + 6 * k + 3) = some noteId)
    (h4 : readByte s.stream (s.dataPointer + 6 * k + 4) = some velocity) :
    readCommand s k = some (commandWord type noteId velocity 0) := by
  simp [readCommand, recordBase, h2, h3, h4]

theorem poll_due {event : State → Host.Outcome State Fault Refusal} {s : State} (hplaying : s.playing = true)
    (hdue : s.nextEventDueAt ≤ s.now) (hnext : s.eventIndex.toNat < s.eventCount.toNat) : poll event s = event s := by
  have hlt : ¬ s.eventCount ≤ s.eventIndex := by
    rw [BitVec.le_def]
    omega
  simp [poll, hplaying, hlt, Nat.not_lt.mpr hdue]

theorem processRecord_none {s : State} (h : readCommand s s.eventIndex.toNat = none) :
    processRecord s = .fault (.eventStreamUnreadable s.eventIndex.toNat) := by
  simp [processRecord, h]

theorem processRecord_reserved {s : State} {w : BitVec 32} (h : readCommand s s.eventIndex.toNat = some w)
    (hw : 2 ≤ (commandType w).toNat) : processRecord s = .refused (.undecodable (.reservedType (commandType w))) := by
  simp [processRecord, h, commandOf_reserved hw]

theorem processRecord_command {s : State} {w : BitVec 32} {c : Command}
    (h : readCommand s s.eventIndex.toNat = some w) (hc : commandOf w = .ok c) :
    processRecord s = processEvent (runCommand c) s := by
  simp [processRecord, h, hc]

/-- An event whose successor has no readable `deltaTicks` stops there. -/
theorem processEvent_unreadable (c : Command) {s : State} (hnext : s.eventIndex.toNat + 1 < s.eventCount.toNat)
    (hdelta : readDelta s (s.eventIndex.toNat + 1) = none) :
    processEvent (runCommand c) s = .fault (.eventStreamUnreadable (s.eventIndex.toNat + 1)) := by
  have hidx : (s.eventIndex + 1).toNat = s.eventIndex.toNat + 1 := by bv_omega
  have hlt : (advanceCursor (runCommand c s)).eventIndex < (advanceCursor (runCommand c s)).eventCount := by
    simp only [advanceCursor_eventIndex, advanceCursor_eventCount, runCommand_eventIndex, runCommand_eventCount,
      BitVec.lt_def, hidx]
    exact hnext
  have hread : readDelta (advanceCursor (runCommand c s)) (s.eventIndex.toNat + 1) = none := by
    rw [← hdelta]
    exact readDelta_congr (by simp) (by simp) _
  unfold processEvent reschedule
  rw [if_pos hlt]
  simp only [advanceCursor_eventIndex, runCommand_eventIndex, hidx, hread]

theorem execUpdate_due {s : State} {now : Nat} (hnow : s.now ≤ now) (hplaying : s.playing = true)
    (hdue : s.nextEventDueAt ≤ now) (hnext : s.eventIndex.toNat < s.eventCount.toNat) :
    exec (.update now) s = processRecord (sampleTime now s) := by
  simp only [exec, execUpdate, if_neg (Nat.not_lt.mpr hnow)]
  exact poll_due hplaying hdue hnext

/-! ### The refused runs -/

theorem step_reserved_command {s : State} {w : BitVec 32} {rest : List Input} (h : NextInput s (.command w) rest)
    (hw : 2 ≤ w.toNat / 2 ^ 24) :
    step s = .refused (.undecodable (.reservedType (BitVec.ofNat 8 (w.toNat / 2 ^ 24)))) := by
  obtain ⟨hrun, hrst, hin⟩ := h
  have htype : BitVec.ofNat 8 (w.toNat / 2 ^ 24) = commandType w := by
    rw [← toNat_commandType, BitVec.ofNat_toNat, BitVec.setWidth_eq]
  have hdec : decode (fetch s).1 = .error (.reservedType (commandType w)) := by
    rw [fetch_input hrst hin]
    simp only [Input.encoded, decode, commandOf_reserved (by rwa [toNat_commandType]), Except.map]
  rw [step_running hrun, hdec, htype]

theorem execStart_unreadable {s : State} {now : Nat} (hnow : s.now ≤ now) (hplaying : s.playing = false)
    (hsong : s.songValid = true) (hnext : s.eventIndex.toNat < s.eventCount.toNat)
    (hdelta : readDelta s s.eventIndex.toNat = none) :
    exec (.start now) s = .fault (.eventStreamUnreadable s.eventIndex.toNat) := by
  have hlt : ¬ s.eventCount ≤ s.eventIndex := by
    rw [BitVec.le_def]
    omega
  simp [exec, execStart, Nat.not_lt.mpr hnow, hplaying, hsong, hlt, hdelta]

/-- Settles O10: each run meets its own test, and no test but that of `step` refuses a configuration. -/
theorem refusedRuns : Obligations.RefusedRuns := by
  refine ⟨fun s w rest h hw => step_reserved_command h hw, fun s => ?_, fun s p c bpm hc hbpm => ?_,
    fun s now h => ?_, fun s now hnow hplaying hsong hnext h => ?_, fun s now hnow hplaying hdue hnext => ?_⟩
  · rw [step_refused_configuration_iff, not_configInRange_iff, halfPeriodAtLeast_zero_iff]
  · rw [exec, execLoadSong, if_neg hc, binary32Value_none hbpm]
  · rw [exec, exec, execStart, execUpdate, if_pos h, if_pos h]
    exact ⟨rfl, rfl⟩
  · exact execStart_unreadable hnow hplaying hsong hnext (readDelta_none h)
  · have hupdate := execUpdate_due hnow hplaying hdue hnext
    refine ⟨fun h => ?_, fun type noteId velocity h2 h3 h4 => ⟨fun ht => ?_, fun ht hsucc h => ?_⟩,
      fun hsucc h d noteId velocity ev hev => ?_⟩
    · rw [hupdate]
      exact processRecord_none (readCommand_none h)
    · have hreserved := processRecord_reserved (s := sampleTime now s) (readCommand_some h2 h3 h4)
        (by rwa [commandType_commandWord])
      rw [hupdate, hreserved, commandType_commandWord]
    · obtain ⟨c, hc⟩ := commandOf_command (w := commandWord type noteId velocity 0) (by rwa [commandType_commandWord])
      rw [hupdate, processRecord_command (s := sampleTime now s) (readCommand_some h2 h3 h4) hc]
      exact processEvent_unreadable c hsucc (readDelta_succ_none h)
    · have hevent : ∀ c, poll (processEvent (runCommand c)) (sampleTime now s) =
          .fault (.eventStreamUnreadable (s.eventIndex.toNat + 1)) := fun c =>
        (poll_due (s := sampleTime now s) hplaying hdue hnext).trans
          (processEvent_unreadable c hsucc (readDelta_succ_none h))
      simp only [List.mem_cons, List.not_mem_nil, or_false] at hev
      rcases hev with rfl | rfl | rfl
      · exact hevent (.noteOff noteId)
      · exact hevent (.noteOnV0 noteId)
      · exact hevent (.noteOn noteId velocity)

end Sys2Proof.Machine
end

section
/-! SUPPORT. What an instruction did that answered a next state, one case per way to complete (R70, R168): claims about
every next state (R14, R17, R26, R200) are then checked case by case. -/

namespace Sys2Proof.Machine

/-- The command that the record at the cursor stands for (R51, R169). -/
def RecordAtCursor (s : State) (c : Command) : Prop :=
  ∃ w, readCommand s s.eventIndex.toNat = some w ∧ commandOf w = .ok c

/-- The ways UPDATE, or an event record, completes from a state whose time is sampled, when the command it dispatches is
one of `event` (R168, R170). -/
inductive Polled (event : Command → Prop) (s : State) : State → Prop
  | idle (stopped : s.playing = false) : Polled event s (returnValue (.stillPlaying false) s)
  | early (playing : s.playing = true) (wait : s.now < s.nextEventDueAt) :
      Polled event s (returnValue (.stillPlaying true) s)
  | finished (playing : s.playing = true) (due : s.nextEventDueAt ≤ s.now) (exhausted : s.eventCount ≤ s.eventIndex) :
      Polled event s (returnValue (.stillPlaying false) (setPlaying false s))
  | last (c : Command) (dispatched : event c) (playing : s.playing = true) (due : s.nextEventDueAt ≤ s.now)
      (at_record : s.eventIndex < s.eventCount) (no_next : s.eventCount ≤ s.eventIndex + 1) :
      Polled event s (returnValue (.stillPlaying true) (advanceCursor (runCommand c s)))
  | next (c : Command) (dispatched : event c) (d : Word) (playing : s.playing = true) (due : s.nextEventDueAt ≤ s.now)
      (at_record : s.eventIndex < s.eventCount) (has_next : s.eventIndex + 1 < s.eventCount)
      (delta : readDelta s (s.eventIndex + 1).toNat = some d) :
      Polled event s (returnValue (.stillPlaying true)
        (setDue (s.now + delayOf s.cfg s.millisPerTick d) (advanceCursor (runCommand c s))))

/-- The ways an instruction completes. -/
inductive Executed (s : State) : Instr → State → Prop
  | noteOff (n : Int) : Executed s (.noteOff n) (noteOff n s)
  | noteOnV0 (n : Byte) : Executed s (.noteOnV0 n) (noteOff n.toNat s)
  | noteOn (n v : Int) : Executed s (.noteOn n v) (noteOn n v s)
  | render (empty : s.pcmValid = false) : Executed s .render (render s)
  | emit (full : s.pcmValid = true) : Executed s .emit (outputFrame s)
  | hold (full : s.pcmValid = true) : Executed s .hold s
  | reset : Executed s .reset (resetBlock s)
  | evOff (d : Word) (n : Byte) {t : State} (polled : Polled (· = .noteOff n) s t) : Executed s (.evOff d n) t
  | evOnV0 (d : Word) (n : Byte) {t : State} (polled : Polled (· = .noteOnV0 n) s t) : Executed s (.evOnV0 d n) t
  | evOn (d : Word) (n v : Byte) {t : State} (polled : Polled (· = .noteOn n v) s t) : Executed s (.evOn d n v) t
  | songRejected (p : Option Nat) (c : Word) (bits : BitVec 32) (invalid : p = none ∨ c = 0) :
      Executed s (.loadSong p c bits) (rejectSong s)
  | songLoaded (p : Nat) (c : Word) (bits : BitVec 32) (bpm : Rat) (has_records : c ≠ 0)
      (finite : binary32Value bits = some bpm) :
      Executed s (.loadSong (some p) c bits)
        (returnValue (.loaded true) (installSong p c (millisPerTickOf s.cfg (tempoOf s.cfg bpm)) s))
  | startIgnored (now : Nat) (in_order : s.now ≤ now)
      (not_loaded : s.playing = true ∨ s.songValid = false ∨ s.eventCount ≤ s.eventIndex) :
      Executed s (.start now) (sampleTime now s)
  | started (now : Nat) (d : Word) (in_order : s.now ≤ now) (stopped : s.playing = false) (song : s.songValid = true)
      (at_record : s.eventIndex < s.eventCount) (delta : readDelta s s.eventIndex.toNat = some d) :
      Executed s (.start now)
        (setPlaying true (setDue (now + delayOf s.cfg s.millisPerTick d) (sampleTime now s)))
  | stopIgnored (stopped : s.playing = false) : Executed s .stop s
  | stopped (playing : s.playing = true) : Executed s .stop (setPlaying false s)
  | update (now : Nat) {t : State} (in_order : s.now ≤ now)
      (polled : Polled (RecordAtCursor s) (sampleTime now s) t) : Executed s (.update now) t

/-! ### Every next state comes about in one of these ways -/

theorem processEvent_next {event : Command → Prop} {c : Command} {s t : State} (dispatched : event c)
    (playing : s.playing = true) (due : s.nextEventDueAt ≤ s.now) (at_record : s.eventIndex < s.eventCount)
    (h : processEvent (runCommand c) s = .next t) : Polled event s t := by
  unfold processEvent at h
  rcases reschedule_cases (advanceCursor (runCommand c s)) with ⟨hlast, hr⟩ | ⟨hnext, d, hd, hr⟩ | ⟨-, -, hr⟩ <;>
    rw [hr] at h
  · cases h
    exact .last c dispatched playing due at_record (by simpa using hlast)
  · have delta : readDelta s (s.eventIndex + 1).toNat = some d := by
      rw [← hd, advanceCursor_eventIndex, runCommand_eventIndex]
      exact readDelta_congr (by simp) (by simp) _
    have hpoll := Polled.next c dispatched d playing due at_record (by simpa using hnext) delta
    cases h
    simpa using hpoll
  · cases h

/-- UPDATE's three tests: one of them ends the poll, or the event completes (R168). -/
theorem poll_next {event : Command → Prop} {run : State → Host.Outcome State Fault Refusal} {s t : State}
    (h : poll run s = .next t)
    (hrun : s.playing = true → s.nextEventDueAt ≤ s.now → s.eventIndex < s.eventCount → run s = .next t →
      Polled event s t) : Polled event s t := by
  rcases poll_cases run s with ⟨hp, hr⟩ | ⟨hp, hd, hr⟩ | ⟨hp, hd, hc, hr⟩ | ⟨hp, hd, hc, hr⟩ <;> rw [hr] at h
  · cases h
    exact .idle hp
  · cases h
    exact .early hp hd
  · cases h
    exact .finished hp hd hc
  · exact hrun hp hd hc h

theorem poll_processEvent_next {c : Command} {s t : State} (h : poll (processEvent (runCommand c)) s = .next t) :
    Polled (· = c) s t := poll_next h (processEvent_next rfl)

theorem poll_processRecord_next {s t : State} (h : poll processRecord s = .next t) :
    Polled (RecordAtCursor s) s t := by
  refine poll_next h fun hp hd hc h => ?_
  rcases processRecord_cases s with ⟨-, hr⟩ | ⟨w, e, -, -, hr⟩ | ⟨w, c, hw, hcommand, hr⟩ <;> rw [hr] at h
  · cases h
  · cases h
  · exact processEvent_next ⟨w, hw, hcommand⟩ hp hd hc h

theorem execLoadSong_next {p : Option Nat} {c : Word} {bits : BitVec 32} {s t : State}
    (h : execLoadSong p c bits s = .next t) : Executed s (.loadSong p c bits) t := by
  unfold execLoadSong at h
  cases p with
  | none => cases h; exact .songRejected none c bits (.inl rfl)
  | some p =>
    simp only at h
    split at h
    · next hc => cases h; exact .songRejected (some p) c bits (.inr hc)
    · next hc =>
      split at h
      · cases h
      · next b hb => cases h; exact .songLoaded p c bits b hc hb

theorem execStart_next {now : Nat} {s t : State} (h : execStart now s = .next t) : Executed s (.start now) t := by
  unfold execStart at h
  split at h
  · cases h
  · next hnow =>
    have in_order := Nat.not_lt.mp hnow
    split at h
    · next hoff =>
      cases h
      simp only [Bool.or_eq_true, Bool.not_eq_true'] at hoff
      exact .startIgnored now in_order (hoff.imp_right .inl)
    · next hon =>
      simp only [Bool.or_eq_true, Bool.not_eq_true', not_or, Bool.not_eq_true, Bool.not_eq_false] at hon
      obtain ⟨stopped, song⟩ := hon
      split at h
      · next hc => cases h; exact .startIgnored now in_order (.inr (.inr hc))
      · next hc =>
        split at h
        · cases h
        · next d hd => cases h; exact .started now d in_order stopped song (BitVec.not_le.mp hc) hd

/-- The inversion of `exec`: a next state comes about in one of the ways of `Executed`. -/
theorem exec_next {i : Instr} {s t : State} (h : exec i s = .next t) : Executed s i t := by
  cases i with
  | noteOff n => cases h; exact .noteOff n
  | noteOnV0 n => cases h; exact .noteOnV0 n
  | noteOn n v => cases h; exact .noteOn n v
  | render =>
    simp only [exec, execRender] at h
    split at h
    · cases h
    · next hv => cases h; exact .render (Bool.not_eq_true _ ▸ hv)
  | emit =>
    simp only [exec, execEmit] at h
    split at h
    · next hv => cases h; exact .emit hv
    · cases h
  | hold =>
    simp only [exec, execHold] at h
    split at h
    · next hv => cases h; exact .hold hv
    · cases h
  | reset => cases h; exact .reset
  | evOff d n => exact .evOff d n (poll_processEvent_next h)
  | evOnV0 d n => exact .evOnV0 d n (poll_processEvent_next h)
  | evOn d n v => exact .evOn d n v (poll_processEvent_next h)
  | loadSong p c bits => exact execLoadSong_next h
  | start now => exact execStart_next h
  | stop =>
    simp only [exec, execStop] at h
    split at h
    · next hp => cases h; exact .stopped hp
    · next hp => cases h; exact .stopIgnored (Bool.not_eq_true _ ▸ hp)
  | update now =>
    simp only [exec, execUpdate] at h
    split at h
    · cases h
    · next hnow => exact .update now (Nat.not_lt.mp hnow) (poll_processRecord_next h)

end Sys2Proof.Machine
end

section
/-! SUPPORT. What the ways to complete leave alone (10_state.md R17, R20; R100, R160, R200). -/

namespace Sys2Proof.Machine

/-- The diagnostics are added to, by one at most (R200, R207). -/
abbrev ReportsAtMostOne (s t : State) : Prop := ∃ d, t.diags = s.diags ++ d ∧ d.length ≤ 1

theorem noteOn_reports (n v : Int) (s : State) : ReportsAtMostOne s (noteOn n v s) := by
  rcases noteOn_cases n v s with ⟨h, -⟩ | ⟨j, w, -, -, -, ⟨-, h⟩ | ⟨-, -, h⟩⟩ <;> rw [h]
  · exact ⟨[.voicePoolExhausted], rfl, le_rfl⟩
  · exact ⟨[.invalidNoteParameters], rfl, le_rfl⟩
  · exact ⟨[], by simp⟩

theorem runCommand_reports (c : Command) (s : State) : ReportsAtMostOne s (runCommand c s) := by
  cases c with
  | noteOff n => exact ⟨[], by simp [runCommand]⟩
  | noteOnV0 n => exact ⟨[], by simp [runCommand]⟩
  | noteOn n v => exact noteOn_reports _ _ s

/-! ### UPDATE and the event records -/

/-- An UPDATE writes neither the configuration nor the stream nor the PCM register (R17, R20, R173). -/
theorem Polled.unchanged {event : Command → Prop} {s t : State} (h : Polled event s t) :
    t.cfg = s.cfg ∧ t.launch = s.launch ∧ t.stream = s.stream ∧
      t.pcmSample = s.pcmSample ∧ t.pcmValid = s.pcmValid ∧ t.frames = s.frames := by
  cases h <;> simp

/-- An UPDATE reaches the voice table and the diagnostics through the one command it dispatches (R168, R173). -/
theorem Polled.dispatch {event : Command → Prop} {s t : State} (h : Polled event s t) :
    (t.voices = s.voices ∧ t.diags = s.diags) ∨
      ∃ c, event c ∧ t.voices = (runCommand c s).voices ∧ t.diags = (runCommand c s).diags := by
  cases h with
  | idle => exact .inl ⟨rfl, rfl⟩
  | early => exact .inl ⟨rfl, rfl⟩
  | finished => exact .inl ⟨rfl, rfl⟩
  | last c dispatched => exact .inr ⟨c, dispatched, rfl, rfl⟩
  | next c dispatched => exact .inr ⟨c, dispatched, rfl, rfl⟩

theorem Polled.reports {event : Command → Prop} {s t : State} (h : Polled event s t) :
    ReportsAtMostOne s t := by
  rcases h.dispatch with ⟨-, hd⟩ | ⟨c, -, -, hd⟩
  · exact ⟨[], by simp [hd]⟩
  · unfold ReportsAtMostOne
    rw [hd]
    exact runCommand_reports c s

/-- An UPDATE returns one value (R168). -/
theorem Polled.returns {event : Command → Prop} {s t : State} (h : Polled event s t) :
    ∃ r, t.returns = s.returns ++ [r] := by
  cases h with
  | idle | early | finished => exact ⟨_, rfl⟩
  | last | next => exact ⟨.stillPlaying true, by simp⟩

/-! ### Every instruction -/

section
variable {i : Instr} {s t : State}

/-- No instruction writes the configuration, the launch premise or the event stream (R20, R40, R205). -/
theorem Executed.unchanged (h : Executed s i t) : t.cfg = s.cfg ∧ t.launch = s.launch ∧ t.stream = s.stream := by
  cases h with
  | evOff d n hp | evOnV0 d n hp | evOn d n v hp | update now _ hp =>
    obtain ⟨hcfg, hlaunch, hstream, -⟩ := hp.unchanged
    exact ⟨hcfg, hlaunch, hstream⟩
  | noteOn n v => simp
  | _ => exact ⟨rfl, rfl, rfl⟩

/-- Frames are added to, by one at most (R143, R200). -/
theorem Executed.frames (h : Executed s i t) : ∃ f, t.frames = s.frames ++ f ∧ f.length ≤ 1 := by
  cases h with
  | evOff d n hp | evOnV0 d n hp | evOn d n v hp | update now _ hp =>
    obtain ⟨-, -, -, -, -, hframes⟩ := hp.unchanged
    exact ⟨[], by simp [hframes]⟩
  | noteOn n v => exact ⟨[], by simp⟩
  | emit => exact ⟨[_], rfl, le_rfl⟩
  | _ => exact ⟨[], (List.append_nil _).symm, Nat.zero_le 1⟩

theorem Executed.reports (h : Executed s i t) : ReportsAtMostOne s t := by
  cases h with
  | evOff d n hp | evOnV0 d n hp | evOn d n v hp | update now _ hp => exact hp.reports
  | noteOn n v => exact noteOn_reports n v s
  | songRejected => exact ⟨[.invalidDescriptor], rfl, le_rfl⟩
  | _ => exact ⟨[], (List.append_nil _).symm, Nat.zero_le 1⟩

theorem Executed.returns (h : Executed s i t) : s.returns <+: t.returns := by
  cases h with
  | evOff d n hp | evOnV0 d n hp | evOn d n v hp | update now _ hp =>
    obtain ⟨r, hr⟩ := hp.returns
    exact ⟨[r], hr.symm⟩
  | noteOn n v => simp
  | songRejected | songLoaded => exact List.prefix_append _ _
  | _ => exact List.prefix_rfl

end

/-- Settles O49: the fields each way to complete leaves alone. -/
theorem whoWritesTheBlock : Obligations.WhoWritesTheBlock := by
  intro i s t h
  have hx := exec_next h
  refine ⟨fun hrender hemit hreset => ?_, fun hi => ?_, fun hi => ?_⟩
  · cases hx with
    | evOff d n hp | evOnV0 d n hp | evOn d n v hp | update now _ hp =>
      obtain ⟨-, -, -, hpcm⟩ := hp.unchanged
      exact hpcm
    | noteOn n v => simp
    | render | emit | reset => contradiction
    | _ => exact ⟨rfl, rfl, rfl⟩
  · cases hx with
    | emit | hold | songRejected | songLoaded | startIgnored | started | stopIgnored | stopped => rfl
    | _ => simp at hi
  · cases hx with
    | noteOn n v => simp
    | noteOff | noteOnV0 | render | emit | hold | reset => exact ⟨rfl, rfl, rfl, rfl, rfl, rfl, rfl, rfl, rfl⟩
    | _ => simp at hi

/-- Settles O50: a step that runs no instruction writes the launch premise and reports; taking the inputs touches none of
these fields. -/
theorem nothingIsStoredAndOutputsOnlyGrow : Obligations.NothingIsStoredAndOutputsOnlyGrow := by
  intro s t h
  rcases step_cases h with ⟨-, rfl⟩ | ⟨-, rfl⟩ | ⟨-, i, -, hx⟩
  · exact ⟨fun _ => rfl, rfl, List.prefix_rfl, List.prefix_rfl, List.prefix_append _ _, by simp, by simp⟩
  · exact ⟨fun _ => rfl, rfl, List.prefix_rfl, List.prefix_rfl, List.prefix_rfl, by simp, by simp⟩
  · have hx := exec_next hx
    rw [fetch_state] at hx
    obtain ⟨hcfg, -, hstream⟩ := hx.unchanged
    obtain ⟨f, hf, hflen⟩ := hx.frames
    obtain ⟨d, hd, hdlen⟩ := hx.reports
    refine ⟨fun a => by rw [hstream], hcfg, ⟨f, hf.symm⟩, hx.returns, ⟨d, hd.symm⟩, ?_, ?_⟩
    · simpa [hf] using hflen
    · simpa [hd] using hdlen

end Sys2Proof.Machine
end

section
/-! SUPPORT. The invariant of the machine (10_state.md R14, R26), part by part: what each way to complete keeps. -/

namespace Sys2Proof.Machine

/-! ### One slot (R14 items 1, 2, 3, 5) -/

theorem voiceInv_reset (cfg : Config) : VoiceInv cfg Voice.reset := ⟨fun h => Bool.noConfusion h, fun _ => rfl⟩

theorem voiceInv_deactivate (cfg : Config) (v : Voice) : VoiceInv cfg v.deactivate :=
  ⟨fun h => Bool.noConfusion h, fun _ => rfl⟩

/-- A flip takes the level to the other sign and starts the countdown at the half-period; else it counts down (R121). -/
theorem voiceInv_oscillate {cfg : Config} {v : Voice} (h : VoiceInv cfg v) : VoiceInv cfg (oscillate v) := by
  cases hv : v.active with
  | false => rwa [oscillate_inactive hv]
  | true =>
    obtain ⟨hpos, hmax, hlevel, hperiod, hcount⟩ := h.1 hv
    rcases oscillate_cases hv with ⟨-, heq⟩ | ⟨hrun, heq⟩ <;> rw [heq]
    · refine ⟨fun _ => ⟨hpos, hmax, ?_, hperiod, le_rfl⟩, by simp [hv]⟩
      simp only
      split
      · exact .inr rfl
      · exact .inl rfl
    · refine ⟨fun _ => ⟨hpos, hmax, hlevel, hperiod, ?_⟩, by simp [hv]⟩
      simp only
      bv_omega

/-- R6 allows an `A_MAX` of 1 to 32767. -/
theorem aMax_of_inRange {cfg : Config} (h : configInRange cfg = true) : 1 ≤ cfg.aMax ∧ cfg.aMax ≤ 32767 := by
  simp only [configInRange, Bool.and_eq_true, decide_eq_true_eq] at h
  tauto

/-- A voice that NOTE_ON writes starts at its target, its countdown full (R108). -/
theorem voiceInv_newVoice {cfg : Config} (hc : configInRange cfg = true) (vs : List Voice) (noteId : Int)
    {amplitude : Nat} (hpos : amplitude ≠ 0) (hmax : amplitude ≤ cfg.aMax) :
    VoiceInv cfg (newVoice cfg vs noteId amplitude) := by
  have hreg := (aMax_of_inRange hc).2
  have hval : (BitVec.ofNat 16 amplitude).toInt = amplitude := by
    rw [BitVec.toInt_ofNat', Int.bmod_eq_of_le (by omega) (by omega)]
  refine ⟨fun _ => ⟨?_, ?_, .inl rfl, halfPeriodOf_pos cfg noteId, le_rfl⟩, fun h => Bool.noConfusion h⟩
  · simp only [newVoice, hval]
    omega
  · simp only [newVoice, hval]
    omega

/-! ### The voice table (R10, R14 items 1 to 5) -/

theorem exclusive_replicate_reset (n : Nat) : Exclusive (List.replicate n Voice.reset) := by
  rw [exclusive_iff, filter_active_replicate_reset]
  exact .nil

theorem exclusive_silenceNote {vs : List Voice} (h : Exclusive vs) (noteId : Int) :
    Exclusive (silenceNote noteId vs) := by
  rw [exclusive_iff, filter_active_silenceNote]
  exact ((exclusive_iff vs).mp h).sublist List.eraseP_sublist

/-- A voice in a free slot, its note in no slot yet. -/
theorem exclusive_set {vs : List Voice} (h : Exclusive vs) {j : Nat} {w v : Voice} (hj : vs[j]? = some w)
    (hw : w.active = false) (hv : v.active = true) (hnew : ∀ u ∈ vs, u.active = true → u.noteId ≠ v.noteId) :
    Exclusive (vs.set j v) := by
  rw [exclusive_iff, (filter_active_set hj hw hv).pairwise_iff Ne.symm, List.pairwise_cons]
  refine ⟨fun u hu => ?_, (exclusive_iff vs).mp h⟩
  obtain ⟨hmem, hactive⟩ := List.mem_filter.mp hu
  exact (hnew u hmem hactive).symm

theorem exclusive_map_oscillate {vs : List Voice} (h : Exclusive vs) : Exclusive (vs.map oscillate) := by
  simpa [Exclusive, List.pairwise_map] using h

/-- A silenced table holds the slots it held, and at most one deactivated slot (R109). -/
theorem mem_silenceNote {noteId : Int} {vs : List Voice} {w : Voice} (h : w ∈ silenceNote noteId vs) :
    w ∈ vs ∨ ∃ v ∈ vs, w = v.deactivate := by
  rcases silenceNote_cases noteId vs with ⟨heq, -⟩ | ⟨r, v, hr, -, heq, -⟩ <;> rw [heq] at h
  · exact .inl h
  · exact (List.mem_or_eq_of_mem_set h).imp_right fun hw => ⟨v, List.mem_of_getElem? hr, hw⟩

/-- The table's invariant is one on the configuration and the table. -/
theorem TableInv.congr {s t : State} (h : TableInv s) (hcfg : t.cfg = s.cfg) (hvoices : t.voices = s.voices) :
    TableInv t := by
  unfold TableInv
  rwa [hcfg, hvoices]

theorem tableInv_reset {s : State} (h : s.voices = List.replicate s.cfg.numVoices Voice.reset) : TableInv s := by
  refine ⟨by simp [h], fun v hv => ?_, by rw [h]; exact exclusive_replicate_reset _⟩
  rw [h] at hv
  rw [List.eq_of_mem_replicate hv]
  exact voiceInv_reset s.cfg

theorem tableInv_noteOff {s : State} (h : TableInv s) (noteId : Int) : TableInv (noteOff noteId s) := by
  obtain ⟨hlen, hall, hexcl⟩ := h
  refine ⟨by simpa using hlen, fun w hw => ?_, exclusive_silenceNote hexcl noteId⟩
  rcases mem_silenceNote hw with hmem | ⟨v, -, rfl⟩
  · exact hall w hmem
  · exact voiceInv_deactivate s.cfg v

/-- NOTE_ON leaves the table as NOTE_OFF does, or with one sound voice more whose note no slot holds (R101, R108). -/
theorem tableInv_noteOn {s : State} (hc : configInRange s.cfg = true) (h : TableInv s) (noteId velocity : Int) :
    TableInv (noteOn noteId velocity s) := by
  have hoff := tableInv_noteOff h noteId
  obtain ⟨-, -, hexclusive⟩ := h
  rcases noteOn_cases noteId velocity s with ⟨heq, -⟩ | ⟨j, w, hj, hw, -, ⟨-, heq⟩ | ⟨-, hamp, heq⟩⟩ <;> rw [heq]
  · exact hoff.congr rfl rfl
  · exact hoff.congr rfl rfl
  · obtain ⟨hlen, hall, hexcl⟩ := hoff
    refine ⟨by simpa using hlen, fun v hv => ?_, exclusive_set hexcl hj hw rfl ?_⟩
    · rcases List.mem_or_eq_of_mem_set hv with hold | rfl
      · exact hall v hold
      · exact voiceInv_newVoice hc _ _ hamp (ampOf_le (aMax_of_inRange hc).1 (clampVelocity_le velocity))
    · refine noteRegister_unheld ?_ (not_sounds_silenceNote hexclusive noteId)
      exact hlen.trans_le (numVoices_le_of_inRange hc)

theorem tableInv_runCommand {s : State} (hc : configInRange s.cfg = true) (h : TableInv s) (c : Command) :
    TableInv (runCommand c s) := by
  cases c with
  | noteOff n => exact tableInv_noteOff h n.toNat
  | noteOnV0 n => exact tableInv_noteOff h n.toNat
  | noteOn n v => exact tableInv_noteOn hc h n.toNat v.toNat

theorem tableInv_render {s : State} (h : TableInv s) : TableInv (render s) := by
  obtain ⟨hlen, hall, hexcl⟩ := h
  refine ⟨?_, fun w hw => ?_, exclusive_map_oscillate hexcl⟩
  · simpa [render] using hlen
  · obtain ⟨v, hv, rfl⟩ := List.mem_map.mp hw
    exact voiceInv_oscillate (hall v hv)

theorem Polled.tableInv {event : Command → Prop} {s t : State} (hp : Polled event s t)
    (hc : configInRange s.cfg = true) (h : TableInv s) : TableInv t := by
  obtain ⟨hcfg, -⟩ := hp.unchanged
  rcases hp.dispatch with ⟨hvoices, -⟩ | ⟨c, -, hvoices, -⟩
  · exact h.congr hcfg hvoices
  · exact (tableInv_runCommand hc h c).congr (by rw [hcfg, runCommand_cfg]) hvoices

theorem Executed.tableInv {i : Instr} {s t : State} (hx : Executed s i t) (hc : configInRange s.cfg = true)
    (h : TableInv s) : TableInv t := by
  cases hx with
  | noteOff n => exact tableInv_noteOff h n
  | noteOnV0 n => exact tableInv_noteOff h n.toNat
  | noteOn n v => exact tableInv_noteOn hc h n v
  | render => exact tableInv_render h
  | reset => exact tableInv_reset rfl
  | evOff d n hp | evOnV0 d n hp | evOn d n v hp => exact hp.tableInv hc h
  | update now _ hp => exact hp.tableInv hc (h.congr rfl rfl)
  | _ => exact h.congr rfl rfl

/-! ### The sample (R14 item 6, R126) -/

theorem level_bound {cfg : Config} {v : Voice} (h : VoiceInv cfg v) (hv : v.active = true) :
    v.currentLevel.toInt.natAbs ≤ cfg.aMax := by
  obtain ⟨hpos, hmax, hlevel, -⟩ := h.1 hv
  rcases hlevel with heq | heq <;> rw [heq]
  · omega
  · rw [BitVec.toInt_neg_of_ne_intMin (by intro hmin; rw [hmin] at hpos; exact absurd hpos (by decide))]
    omega

/-- The sum is within `A_MAX` times the count. -/
theorem mixSum_bound {cfg : Config} {vs : List Voice} (h : ∀ v ∈ vs, VoiceInv cfg v) :
    (mixSum vs).natAbs ≤ activeCount vs * cfg.aMax := by
  induction vs with
  | nil => simp [mixSum]
  | cons v vs ih =>
    obtain ⟨hv, hvs⟩ := List.forall_mem_cons.mp h
    have hrest := ih hvs
    have hsum : mixSum (v :: vs) = v.contribution + mixSum vs := by simp [mixSum]
    rw [hsum]
    cases hactive : v.active with
    | false => simpa [activeCount, Voice.contribution, hactive] using hrest
    | true =>
      have hlevel := level_bound hv hactive
      have hcount : activeCount (v :: vs) = activeCount vs + 1 := by simp [activeCount, hactive]
      have hcontribution : v.contribution = v.currentLevel.toInt := by simp [Voice.contribution, hactive]
      rw [hcount, hcontribution, Nat.succ_mul]
      omega

/-- The average is within `A_MAX`, so that the clamp never acts (R126). -/
theorem sdivTrunc_mixSum_bound {cfg : Config} {vs : List Voice}
    (h : ∀ v ∈ vs, VoiceInv cfg v) : (sdivTrunc (mixSum vs) (activeCount vs)).natAbs ≤ cfg.aMax := by
  rw [sdivTrunc_eq_tdiv, Int.natAbs_tdiv, Int.natAbs_natCast]
  exact Nat.div_le_of_le_mul (mixSum_bound h)

theorem mix_bound {cfg : Config} (ha : cfg.aMax ≤ 32767) {vs : List Voice} (h : ∀ v ∈ vs, VoiceInv cfg v) :
    (mix vs).toInt.natAbs ≤ cfg.aMax := by
  unfold mix
  split
  · simp
  · have hbound := sdivTrunc_mixSum_bound h
    have hclamp : clamp (sdivTrunc (mixSum vs) (activeCount vs)) (-32768) 32767 =
        sdivTrunc (mixSum vs) (activeCount vs) := by
      rw [clamp_eq (by decide)]
      omega
    rwa [hclamp, BitVec.toInt_ofInt, Int.bmod_eq_of_le (by omega) (by omega)]

theorem pcmInv_render {s : State} (hc : configInRange s.cfg = true) (h : TableInv s) : PcmInv (render s) := by
  obtain ⟨-, hslots, -⟩ := tableInv_render h
  have hbound : (render s).pcmSample.toInt.natAbs ≤ (render s).cfg.aMax := mix_bound (aMax_of_inRange hc).2 hslots
  intro _
  omega

theorem PcmInv.congr {s t : State} (h : PcmInv s) (hcfg : t.cfg = s.cfg) (hsample : t.pcmSample = s.pcmSample)
    (hvalid : t.pcmValid = s.pcmValid) : PcmInv t := by
  unfold PcmInv
  rwa [hcfg, hsample, hvalid]

theorem Executed.pcmInv {i : Instr} {s t : State} (hx : Executed s i t) (hc : configInRange s.cfg = true)
    (htable : TableInv s) (h : PcmInv s) : PcmInv t := by
  cases hx with
  | noteOn n v => exact h.congr (by simp) (by simp) (by simp)
  | render => exact pcmInv_render hc htable
  | emit | reset => exact fun hvalid => Bool.noConfusion hvalid
  | evOff d n hp | evOnV0 d n hp | evOn d n v hp | update now _ hp =>
    obtain ⟨hcfg, -, -, hsample, hvalid, -⟩ := hp.unchanged
    exact h.congr hcfg hsample hvalid
  | _ => exact h.congr rfl rfl rfl

/-! ### The host's registers (R26, R162, R171) -/

/-- A tempo above 0 makes the tick length positive, and the default tempo is one (R6, R161, R162). -/
theorem millisPerTickOf_pos {cfg : Config} (hc : configInRange cfg = true) (bpm : Rat) :
    0 < millisPerTickOf cfg (tempoOf cfg bpm) := by
  obtain ⟨htpqn, hdefault⟩ : 1 ≤ cfg.tpqn ∧ 1 ≤ cfg.defaultBpm := by
    simp only [configInRange, Bool.and_eq_true, decide_eq_true_eq] at hc
    tauto
  have htempo : 0 < tempoOf cfg bpm := by
    unfold tempoOf
    split
    · exact_mod_cast hdefault
    · next h => exact not_le.mp h
  have : (0 : ℚ) < cfg.tpqn := by exact_mod_cast htpqn
  unfold millisPerTickOf
  positivity

/-- The next cursor is still within the song. -/
theorem cursor_succ_le {cursor count : Word} (h : cursor < count) : cursor + 1 ≤ count := by bv_omega

/-- A later time keeps a passed due time passed (R167). -/
theorem hostInv_sampleTime {s : State} (h : HostInv s) {now : Nat} (in_order : s.now ≤ now) :
    HostInv (sampleTime now s) := by
  obtain ⟨hsong, hrecords, hcursor, hdue⟩ := h
  exact ⟨hsong, hrecords, hcursor, fun hp he => (hdue hp he).trans in_order⟩

theorem hostInv_setPlaying_false {s : State} (h : HostInv s) : HostInv (setPlaying false s) := by
  obtain ⟨-, hrecords, hcursor, -⟩ := h
  exact ⟨fun hp => Bool.noConfusion hp, hrecords, hcursor, fun hp => Bool.noConfusion hp⟩

/-- After the last event the due time has passed; after another one the cursor is not at the end (R170, R171). -/
theorem Polled.hostInv {event : Command → Prop} {s t : State} (hp : Polled event s t) (h : HostInv s) :
    HostInv t := by
  cases hp with
  | idle | early => exact h
  | finished => exact hostInv_setPlaying_false (s := s) h
  | last c _ playing due at_record =>
    obtain ⟨hsong, hrecords, -, -⟩ := h
    exact ⟨by simpa using hsong, by simpa using hrecords, by simpa using cursor_succ_le at_record,
      fun _ _ => by simpa using due⟩
  | next c _ d playing due at_record has_next =>
    obtain ⟨hsong, hrecords, -, -⟩ := h
    exact ⟨by simpa using hsong, by simpa using hrecords, by simpa using cursor_succ_le at_record,
      fun _ hend => absurd (by simpa using hend) (BitVec.ne_of_lt has_next)⟩

theorem Executed.hostInv {i : Instr} {s t : State} (hx : Executed s i t) (hc : configInRange s.cfg = true)
    (h : HostInv s) : HostInv t := by
  cases hx with
  | noteOn n v => simpa [HostInv] using h
  | evOff d n hp | evOnV0 d n hp | evOn d n v hp => exact hp.hostInv h
  | update now in_order hp => exact hp.hostInv (hostInv_sampleTime h in_order)
  | songRejected =>
    obtain ⟨-, -, hcursor, -⟩ := h
    exact ⟨fun hp => Bool.noConfusion hp, fun hs => Bool.noConfusion hs, hcursor, fun hp => Bool.noConfusion hp⟩
  | songLoaded p c bits bpm has_records =>
    have hcursor : 0 ≤ c := BitVec.le_def.mpr (Nat.zero_le _)
    exact ⟨fun hp => Bool.noConfusion hp, fun _ => ⟨has_records, millisPerTickOf_pos hc bpm⟩, hcursor,
      fun hp => Bool.noConfusion hp⟩
  | startIgnored now in_order => exact hostInv_sampleTime h in_order
  | started now d in_order stopped song at_record =>
    obtain ⟨-, hrecords, hcursor, -⟩ := h
    exact ⟨fun _ => song, hrecords, hcursor, fun _ hend => absurd hend (BitVec.ne_of_lt at_record)⟩
  | stopped => exact hostInv_setPlaying_false h
  | _ => exact h

/-! ### The whole invariant -/

/-- An instruction of a machine launched with the guard keeps the invariant. -/
theorem Executed.inv {i : Instr} {s t : State} (hx : Executed s i t) (hguard : s.launch = .guardOk) (h : Inv s) :
    Inv t := by
  obtain ⟨hc, htable, hpcm, hhost, -, hwf⟩ := h
  obtain ⟨hcfg, hlaunch, hstream⟩ := hx.unchanged
  exact ⟨by rwa [hcfg], hx.tableInv hc htable, hx.pcmInv hc htable hpcm, hx.hostInv hc hhost,
    fun hne => absurd (hlaunch.trans hguard) hne, by rwa [hstream]⟩

/-- Taking the inputs of a step touches nothing the invariant speaks of. -/
theorem inv_fetch {s : State} (h : Inv s) : Inv (fetch s).2 := by
  rw [fetch_state]
  exact h

/-- Settles O51: a machine without the guard stays as it is but for the report of code 4; any other runs one
instruction. -/
theorem stepKeepsTheInvariant : Obligations.StepKeepsTheInvariant := by
  intro s t h hstep
  rcases step_cases hstep with ⟨hfailed, rfl⟩ | ⟨-, rfl⟩ | ⟨⟨-, hguard⟩, i, -, hx⟩
  · obtain ⟨hc, htable, hpcm, hhost, hlaunch, hwf⟩ := h
    exact ⟨hc, htable, hpcm, hhost, fun _ => hlaunch (by simp [hfailed]), hwf⟩
  · exact h
  · refine (exec_next hx).inv ?_ (inv_fetch h)
    rw [fetch_state]
    exact hguard

/-- Settles O52: the slots of a reset table are sound and silent, and no song is loaded. -/
theorem resetHasTheInvariant : Obligations.ResetHasTheInvariant := by
  have hc : configInRange State.reset.cfg = true := by decide
  exact ⟨hc, tableInv_reset rfl, fun h => Bool.noConfusion h,
    ⟨fun h => Bool.noConfusion h, fun h => Bool.noConfusion h, BitVec.le_refl 0, fun h => Bool.noConfusion h⟩,
    fun h => absurd rfl h, reset_stream_wf⟩

end Sys2Proof.Machine
end

section
/-! SUPPORT. Two states that differ in fields of inactive slots only (10_state.md R15): every operation reads of such a
slot that it is inactive, so its effect on what shows of the table depends on what shows of the table. -/

namespace Sys2Proof.Machine

/-! ### What shows of a table -/

theorem visible_of_active {v : Voice} (h : v.active = true) : v.visible = v := by simp [Voice.visible, h]

theorem visible_of_inactive {v : Voice} (h : v.active = false) : v.visible = Voice.reset := by simp [Voice.visible, h]

@[simp] theorem visible_visible (v : Voice) : v.visible.visible = v.visible := by
  cases h : v.active with
  | false => rw [visible_of_inactive h]; rfl
  | true => rw [visible_of_active h, visible_of_active h]

@[simp] theorem plays_visible (noteId : Int) (v : Voice) : v.visible.plays noteId = v.plays noteId := by
  cases h : v.active with
  | false => simp [Voice.plays, h]
  | true => rw [visible_of_active h]

@[simp] theorem visible_deactivate (v : Voice) : v.deactivate.visible = Voice.reset := rfl

@[simp] theorem contribution_visible (v : Voice) : v.visible.contribution = v.contribution := by
  cases h : v.active with
  | false => simp [Voice.contribution, h]
  | true => rw [visible_of_active h]

theorem visible_oscillate (v : Voice) : (oscillate v).visible = (oscillate v.visible).visible := by
  cases h : v.active with
  | false => rw [oscillate_inactive h, oscillate_inactive (by simpa using h), visible_visible]
  | true => rw [visible_of_active h]

/-! ### What the operations make of what shows -/

theorem map_visible_silenceNote (noteId : Int) (vs : List Voice) :
    (silenceNote noteId vs).map Voice.visible = (silenceNote noteId (vs.map Voice.visible)).map Voice.visible := by
  induction vs with
  | nil => rfl
  | cons v vs ih =>
    rw [List.map_cons, silenceNote_cons, silenceNote_cons, plays_visible]
    split
    · simp
    · rw [List.map_cons, List.map_cons, visible_visible, ih]

theorem map_visible_oscillate (vs : List Voice) :
    (vs.map oscillate).map Voice.visible = ((vs.map Voice.visible).map oscillate).map Voice.visible := by
  simp [visible_oscillate]

theorem findFree_map_visible (vs : List Voice) : findFree (vs.map Voice.visible) = findFree vs := by
  simp [findFree, List.findIdx?_map, Function.comp_def]

theorem soundingNotes_map_visible (vs : List Voice) : soundingNotes (vs.map Voice.visible) = soundingNotes vs := by
  apply soundingNotes_congr
  intro b
  simp only [List.mem_map, exists_exists_and_eq_and, visible_active]
  refine exists_congr fun v => and_congr_right fun _ => and_congr_right fun hv => ?_
  rw [visible_of_active hv]

/-- An inactive slot is neither summed nor counted (R122). -/
theorem mix_map_visible (vs : List Voice) : mix (vs.map Voice.visible) = mix vs := by
  have hsum : mixSum (vs.map Voice.visible) = mixSum vs := by simp [mixSum, Function.comp_def]
  have hcount : activeCount (vs.map Voice.visible) = activeCount vs := by
    simp [activeCount, List.countP_map, Function.comp_def]
  rw [mix, mix, hsum, hcount]

/-! ### Tables that show the same -/

/-- The tables of two states of one rate, the same but for fields of inactive slots. -/
def VisibleTwins (rate : Nat) (vs : List Voice) (rate' : Nat) (ws : List Voice) : Prop :=
  rate' = rate ∧ vs.map Voice.visible = ws.map Voice.visible

theorem sameButInactive_iff (s t : State) : SameButInactive s t ↔ Twins VisibleTwins s t := by
  constructor
  · intro h
    exact ⟨t.voices, s.cfg.sampleRate, (congrArg (setVoices t.voices) h).symm, rfl, congrArg State.voices h⟩
  · rintro ⟨ws, rate, rfl, rfl, hsame⟩
    exact congrArg (fun vs => setVoices vs s) hsame

theorem map_visible_silenceNote_congr {vs ws : List Voice} (h : vs.map Voice.visible = ws.map Voice.visible)
    (noteId : Int) : (silenceNote noteId vs).map Voice.visible = (silenceNote noteId ws).map Voice.visible := by
  rw [map_visible_silenceNote, h, ← map_visible_silenceNote]

theorem noteOff_keepsVisibleTwins (noteId : Int) : KeepsTwins VisibleTwins (noteOff noteId) := by
  rintro s - ⟨ws, rate, rfl, rfl, h⟩
  exact ⟨silenceNote noteId ws, s.cfg.sampleRate, rfl, rfl, map_visible_silenceNote_congr h noteId⟩

/-- NOTE_ON takes the same slot in both tables and writes one and the same voice (R103, R107, R108). -/
theorem noteOn_keepsVisibleTwins (noteId velocity : Int) : KeepsTwins VisibleTwins (noteOn noteId velocity) := by
  intro s t h
  have hoff := noteOff_keepsVisibleTwins noteId s t h
  obtain ⟨ws, rate, rfl, rfl, h⟩ := h
  have hsil := map_visible_silenceNote_congr h noteId
  have hfree : findFree (silenceNote noteId ws) = findFree (silenceNote noteId s.voices) := by
    rw [← findFree_map_visible, ← hsil, findFree_map_visible]
  have hnotes : soundingNotes (silenceNote noteId ws) = soundingNotes (silenceNote noteId s.voices) := by
    rw [← soundingNotes_map_visible, ← hsil, soundingNotes_map_visible]
  cases hf : findFree (silenceNote noteId s.voices) with
  | none =>
    rw [noteOn_exhausted velocity hf, noteOn_exhausted velocity (s := twin ws _ s) (hfree.trans hf)]
    exact hoff.report _
  | some j =>
    rw [noteOn_free velocity hf, noteOn_free velocity (s := twin ws _ s) (hfree.trans hf)]
    change Twins VisibleTwins _ (if noteRejected s.cfg noteId velocity then _ else _)
    split
    · exact hoff.report _
    · have hvoice : newVoice s.cfg (silenceNote noteId ws) noteId (ampOf s.cfg (clampVelocity velocity)) =
          newVoice s.cfg (silenceNote noteId s.voices) noteId (ampOf s.cfg (clampVelocity velocity)) := by
        simp only [newVoice, noteRegister, hnotes]
      refine ⟨(silenceNote noteId ws).set j (newVoice s.cfg (silenceNote noteId ws) noteId _),
        s.cfg.sampleRate, rfl, rfl, ?_⟩
      rw [setVoices_voices, List.map_set, List.map_set, hsil, ← hvoice]
      rfl

/-- RENDER leaves tables that show the same, and samples that are the same (R120, R122). -/
theorem render_visibleTwins {s t : State} (h : Twins VisibleTwins s t) : Twins VisibleTwins (render s) (render t) := by
  obtain ⟨ws, rate, rfl, rfl, h⟩ := h
  have hsame : (s.voices.map oscillate).map Voice.visible = (ws.map oscillate).map Voice.visible := by
    rw [map_visible_oscillate, h, ← map_visible_oscillate]
  have hmix : mix (ws.map oscillate) = mix (s.voices.map oscillate) := by
    rw [← mix_map_visible, ← hsame, mix_map_visible]
  refine ⟨ws.map oscillate, s.cfg.sampleRate, ?_, rfl, hsame⟩
  unfold render
  rw [← hmix]
  rfl

theorem resetBlock_visibleTwins {s t : State} (h : Twins VisibleTwins s t) :
    Twins VisibleTwins (resetBlock s) (resetBlock t) := by
  obtain ⟨ws, rate, rfl, rfl, -⟩ := h
  exact ⟨_, s.cfg.sampleRate, rfl, rfl, rfl⟩

theorem exec_visibleTwins (i : Instr) {s t : State} (h : Twins VisibleTwins s t) :
    AgreeingOutcomes (Twins VisibleTwins) (exec i s) (exec i t) :=
  exec_twins i h noteOff_keepsVisibleTwins (fun _ => noteOn_keepsVisibleTwins) (fun _ => render_visibleTwins h)
    (fun _ => resetBlock_visibleTwins h)

/-! ### The step -/

/-- Twins of one rate step alike if every instruction treats them alike: the same operation is selected for both. -/
theorem step_twins {P : Nat → List Voice → Nat → List Voice → Prop} {s t : State}
    (hrate : ∀ r vs r' ws, P r vs r' ws → r' = r)
    (hexec : ∀ i s t, Twins P s t → AgreeingOutcomes (Twins P) (exec i s) (exec i t)) (h : Twins P s t) :
    AgreeingOutcomes (Twins P) (step s) (step t) := by
  obtain ⟨ws, rate, rfl, hP⟩ := id h
  obtain rfl := hrate _ _ _ _ hP
  have hcfg : (twin ws s.cfg.sampleRate s).cfg = s.cfg := rfl
  have hlaunch : (twin ws s.cfg.sampleRate s).launch = s.launch := rfl
  unfold step
  rw [hcfg, hlaunch, fetch_twin]
  split
  · cases s.launch with
    | guardFailed => exact ⟨ws, s.cfg.sampleRate, rfl, hP⟩
    | aborted => exact h
    | guardOk =>
      have hfetch : Twins P (fetch s).2 (twin ws s.cfg.sampleRate (fetch s).2) := by
        rw [fetch_state]
        exact ⟨ws, s.cfg.sampleRate, rfl, hP⟩
      cases decode (fetch s).1 with
      | error e => rfl
      | ok i => exact hexec i _ _ hfetch
  · rfl

/-- Settles O53: the selected operation is the same, and each operation's effect on what shows of the voice table depends
on what shows of it. -/
theorem inactiveFieldsNeverShow : Obligations.InactiveFieldsNeverShow := by
  intro s t h
  rw [sameButInactive_iff] at h
  exact (step_twins (fun _ _ _ _ hP => hP.1) (fun i _ _ => exec_visibleTwins i) h).imp
    fun s' t' => (sameButInactive_iff s' t').mpr

end Sys2Proof.Machine
end

section
/-! SUPPORT. The block's remaining claims of 10_state.md: a call's note outside the register, RESET, the decoded step. -/

namespace Sys2Proof.Machine

/-- A note outside 0..255 sounds in no slot (R11). -/
theorem not_sounds_of_outside {noteId : Int} (h : noteId < 0 ∨ 255 < noteId) (v : Voice) : ¬ Sounds v noteId := by
  rintro ⟨-, heq⟩
  have := v.noteId.isLt
  omega

/-- In every build `freqOf` is the note's frequency, but where it underflows to 0 (R105, U15). -/
theorem freqOf_cases (cfg : Config) (noteId : Int) :
    freqOf cfg noteId = .silent ∨ freqOf cfg noteId = .ofNote noteId := by
  unfold freqOf
  cases cfg.numerics with
  | reference => exact .inr rfl
  | implementation =>
    simp only
    split
    · exact .inl rfl
    · exact .inr rfl

theorem freqOf_eq_ofNote {cfg : Config} {noteId : Int} (h : (freqOf cfg noteId).isNonPositive = false) :
    freqOf cfg noteId = .ofNote noteId := by
  rcases freqOf_cases cfg noteId with heq | heq
  · simp [heq, Frequency.isNonPositive] at h
  · exact heq

/-- Settles O21: no slot sounds the note, so NOTE_ON silences nothing and writes the first free slot. -/
theorem noteOnOutsideTheRegister : Obligations.NoteOnOutsideTheRegister := by
  intro s noteId velocity j v houtside hlen hj hv first amplitude hfreq hamp
  have hunheld : ∀ w ∈ s.voices, ¬ Sounds w noteId := fun w _ => not_sounds_of_outside houtside w
  have hsil := silenceNote_none hunheld
  have hfree : findFree (silenceNote noteId s.voices) = some j := by rw [hsil, findFree_some hj hv first]
  have haccepted : noteRejected s.cfg noteId velocity = false := by
    simp only [noteRejected, hfreq, Bool.false_or]
    exact beq_false_of_ne hamp
  refine ⟨noteRegister noteId s.voices, noteRegister_unheld hlen hunheld, ?_⟩
  rw [exec, execNoteOn, noteOn_free velocity hfree, haccepted, hsil, ← freqOf_eq_ofNote hfreq]
  rfl

/-- Settles O5: with `rst` low the step's form is the first queued input's. -/
theorem stepRunsTheDecodedInstruction : Obligations.StepRunsTheDecodedInstruction := by
  intro s inp rest i hnext hdecode
  obtain ⟨hrun, hrst, hin⟩ := hnext
  refine ⟨decode_wellFormed hdecode, ?_⟩
  have hsel := fetch_input hrst hin
  have hdec : decode (fetch s).1 = .ok i := by rw [hsel, hdecode]
  rw [step_running hrun, hdec, hsel]

/-- Settles O34: the record that `resetBlock` writes (R230). -/
theorem resetWritesTheBlock : Obligations.ResetWritesTheBlock := fun _ => rfl

/-- Settles O35: each slot of the table is `Voice.reset`, and with no song the host is Idle. -/
theorem resetValues : Obligations.ResetValues := by
  refine ⟨rfl, fun v hv => ?_, rfl, rfl, rfl, rfl, rfl, rfl⟩
  rw [List.eq_of_mem_replicate hv]
  exact ⟨rfl, rfl, rfl, rfl, rfl, rfl, rfl⟩

end Sys2Proof.Machine
end

section
/-! SUPPORT. The host's state machine (10_state.md R26; 43_host_sequencer.md R174): which registers make up each of the
four states, and where each call leads. -/

namespace Sys2Proof.Machine

/-! ### The four states -/

theorem hostMode_idle {s : State} (h : s.songValid = false) : hostMode s = .idle := by simp [hostMode, h]

theorem hostMode_playing {s : State} (hsong : s.songValid = true) (h : s.playing = true) : hostMode s = .playing := by
  simp [hostMode, hsong, h]

theorem hostMode_loaded {s : State} (hsong : s.songValid = true) (hplaying : s.playing = false)
    (h : s.eventIndex < s.eventCount) : hostMode s = .loaded := by simp [hostMode, hsong, hplaying, h]

theorem hostMode_finished {s : State} (hsong : s.songValid = true) (hplaying : s.playing = false)
    (h : s.eventCount ≤ s.eventIndex) : hostMode s = .finished := by
  simp [hostMode, hsong, hplaying, BitVec.not_lt.mpr h]

/-- The state is one of these four registers' (R26). -/
theorem hostMode_congr {s t : State} (hsong : t.songValid = s.songValid) (hplaying : t.playing = s.playing)
    (hcursor : t.eventIndex = s.eventIndex) (hcount : t.eventCount = s.eventCount) : hostMode t = hostMode s := by
  rw [hostMode, hostMode, hsong, hplaying, hcursor, hcount]

/-- The host is in one of the four states. -/
theorem hostMode_cases (s : State) :
    (s.songValid = false ∧ hostMode s = .idle) ∨
    (s.songValid = true ∧ s.playing = true ∧ hostMode s = .playing) ∨
    (s.songValid = true ∧ s.playing = false ∧ s.eventIndex < s.eventCount ∧ hostMode s = .loaded) ∨
    (s.songValid = true ∧ s.playing = false ∧ s.eventCount ≤ s.eventIndex ∧ hostMode s = .finished) := by
  cases hsong : s.songValid with
  | false => exact .inl ⟨rfl, hostMode_idle hsong⟩
  | true =>
    cases hplaying : s.playing with
    | true => exact .inr (.inl ⟨rfl, rfl, hostMode_playing hsong hplaying⟩)
    | false =>
      by_cases hcursor : s.eventIndex < s.eventCount
      · exact .inr (.inr (.inl ⟨rfl, rfl, hcursor, hostMode_loaded hsong hplaying hcursor⟩))
      · have hend := BitVec.not_lt.mp hcursor
        exact .inr (.inr (.inr ⟨rfl, rfl, hend, hostMode_finished hsong hplaying hend⟩))

theorem hostMode_eq_playing_iff {s : State} (h : HostInv s) : hostMode s = .playing ↔ s.playing = true := by
  obtain ⟨hsong, -⟩ := h
  refine ⟨fun hmode => ?_, fun hp => hostMode_playing (hsong hp) hp⟩
  rcases hostMode_cases s with ⟨-, hm⟩ | ⟨-, hplaying, -⟩ | ⟨-, -, -, hm⟩ | ⟨-, -, -, hm⟩
  · simp [hm] at hmode
  · exact hplaying
  · simp [hm] at hmode
  · simp [hm] at hmode

theorem hostMode_eq_loaded_iff (s : State) :
    hostMode s = .loaded ↔ s.songValid = true ∧ s.playing = false ∧ s.eventIndex < s.eventCount := by
  refine ⟨fun hmode => ?_, fun ⟨hsong, hplaying, h⟩ => hostMode_loaded hsong hplaying h⟩
  rcases hostMode_cases s with ⟨-, hm⟩ | ⟨-, -, hm⟩ | ⟨hsong, hplaying, hcursor, -⟩ | ⟨-, -, -, hm⟩
  · simp [hm] at hmode
  · simp [hm] at hmode
  · exact ⟨hsong, hplaying, hcursor⟩
  · simp [hm] at hmode

/-! ### The calls -/

theorem hostMode_loadSong {s t : State} {p : Option Nat} {c : Word} {bits : BitVec 32}
    (hx : Executed s (.loadSong p c bits) t) :
    (hostMode t = if p = none ∨ c = 0 then .idle else .loaded) ∧
      (p ≠ none → c ≠ 0 → t.eventIndex = 0) ∧ ((p = none ∨ c = 0) → t.eventIndex = s.eventIndex) := by
  cases hx with
  | songRejected _ _ _ invalid =>
    rw [if_pos invalid]
    exact ⟨hostMode_idle rfl, fun hp hc => (invalid.elim hp hc).elim, fun _ => rfl⟩
  | songLoaded p _ _ bpm has_records =>
    have hvalid : ¬ (some p = none ∨ c = 0) := by simpa using has_records
    rw [if_neg hvalid]
    refine ⟨hostMode_loaded rfl rfl ?_, fun _ _ => rfl, fun h => absurd h hvalid⟩
    simpa [BitVec.lt_def] using Nat.pos_of_ne_zero fun h => has_records (BitVec.eq_of_toNat_eq h)

theorem hostMode_start {s t : State} {now : Nat} (hx : Executed s (.start now) t) :
    (hostMode t = if hostMode s = .loaded then .playing else hostMode s) ∧ t.eventIndex = s.eventIndex := by
  cases hx with
  | startIgnored _ _ not_loaded =>
    have hmode : hostMode s ≠ .loaded := by
      rw [Ne, hostMode_eq_loaded_iff]
      rintro ⟨hsong, hplaying, hcursor⟩
      rcases not_loaded with h | h | h
      · simp [hplaying] at h
      · simp [hsong] at h
      · exact BitVec.not_lt.mpr h hcursor
    rw [if_neg hmode]
    exact ⟨hostMode_congr rfl rfl rfl rfl, rfl⟩
  | started _ d _ stopped song at_record =>
    rw [if_pos ((hostMode_eq_loaded_iff s).mpr ⟨song, stopped, at_record⟩)]
    exact ⟨hostMode_playing song rfl, rfl⟩

theorem hostMode_stop {s t : State} (h : HostInv s) (hx : Executed s .stop t) :
    (hostMode t = if hostMode s = .playing then
      (if s.eventIndex = s.eventCount then .finished else .loaded) else hostMode s) ∧
    t.eventIndex = s.eventIndex := by
  cases hx with
  | stopIgnored stopped =>
    have hmode : hostMode s ≠ .playing := by simp [hostMode_eq_playing_iff h, stopped]
    exact ⟨(if_neg hmode).symm, rfl⟩
  | stopped playing =>
    obtain ⟨hsong, -, hcursor, -⟩ := id h
    rw [if_pos ((hostMode_eq_playing_iff h).mpr playing)]
    refine ⟨?_, rfl⟩
    split
    · next hend => exact hostMode_finished (hsong playing) rfl (BitVec.le_of_eq hend.symm)
    · next hend => exact hostMode_loaded (hsong playing) rfl (BitVec.lt_of_le_ne hcursor hend)

/-- UPDATE ends a song whose cursor is exhausted when it is due, and moves the cursor of one that is due and is not. -/
theorem hostMode_polled {event : Command → Prop} {s t : State} (h : HostInv s) (hp : Polled event s t) :
    (hostMode t = if hostMode s = .playing ∧ s.nextEventDueAt ≤ s.now ∧ s.eventIndex = s.eventCount
      then .finished else hostMode s) ∧
    t.eventIndex = (if hostMode s = .playing ∧ s.nextEventDueAt ≤ s.now ∧ s.eventIndex ≠ s.eventCount
      then s.eventIndex + 1 else s.eventIndex) ∧
    t.returns = s.returns ++ [.stillPlaying (decide (hostMode s = .playing ∧
      ¬ (s.nextEventDueAt ≤ s.now ∧ s.eventIndex = s.eventCount)))] := by
  have hmode := hostMode_eq_playing_iff h
  obtain ⟨hsong, -, hcursor, -⟩ := id h
  cases hp with
  | idle stopped =>
    have hnot : hostMode s ≠ .playing := by simp [hmode, stopped]
    simp only [hnot, false_and, if_false, decide_false]
    exact ⟨hostMode_congr rfl rfl rfl rfl, rfl, rfl⟩
  | early playing wait =>
    have hnot : ¬ s.nextEventDueAt ≤ s.now := Nat.not_le.mpr wait
    simp only [hmode.mpr playing, hnot, false_and, and_false, if_false, not_false_eq_true, and_self, decide_true]
    exact ⟨(hostMode_congr rfl rfl rfl rfl).trans (hmode.mpr playing), rfl, rfl⟩
  | finished playing due exhausted =>
    have hend : s.eventIndex = s.eventCount := BitVec.le_antisymm hcursor exhausted
    simp only [hmode.mpr playing, due, hend, and_self, if_true, ne_eq, not_true_eq_false, and_false, if_false,
      decide_false]
    exact ⟨hostMode_finished (hsong playing) rfl exhausted, hend, rfl⟩
  | last c _ playing due at_record | next c _ _ playing due at_record =>
    have hnot : s.eventIndex ≠ s.eventCount := BitVec.ne_of_lt at_record
    simp only [hmode.mpr playing, due, hnot, and_false, if_false, ne_eq, not_false_eq_true, and_self, if_true,
      decide_true]
    exact ⟨hostMode_playing (by simpa using hsong playing) (by simpa using playing), by simp, by simp⟩

/-- Settles O46, call by call; what an UPDATE does is what its poll does at the sampled time. -/
theorem hostStateMachine : Obligations.HostStateMachine := by
  intro s t h
  refine ⟨fun p c bits hx => hostMode_loadSong (exec_next hx), fun now hx => hostMode_start (exec_next hx),
    fun hx => hostMode_stop h (exec_next hx), fun now hx => ?_⟩
  cases exec_next hx with
  | update _ in_order polled => exact hostMode_polled (hostInv_sampleTime h in_order) polled

end Sys2Proof.Machine
end

section
/-! SUPPORT. The event records (20_memory.md R41, R45, R51, R53): what the record at the cursor's address decodes to, that
START schedules it, and that UPDATE runs it. -/

namespace Sys2Proof.Machine

/-! ### The fields of a record (R51) -/

/-- Big-endian, put together as a number (R41). -/
theorem bigEndian_eq_ofNat (b0 b1 : Byte) : bigEndian b0 b1 = BitVec.ofNat 16 (256 * b0.toNat + b1.toNat) := by
  rw [← toNat_bigEndian, BitVec.ofNat_toNat, BitVec.setWidth_eq]

theorem readDelta_some {s : State} {k : Nat} {b0 b1 : Byte}
    (h0 : readByte s.stream (s.dataPointer + 6 * k) = some b0)
    (h1 : readByte s.stream (s.dataPointer + 6 * k + 1) = some b1) : readDelta s k = some (bigEndian b0 b1) := by
  simp [readDelta, recordBase, h0, h1]

/-! ### The decoder on a record's bytes (R60, R64) -/

/-- The command of three bytes, by type and velocity (R62). -/
theorem commandOf_commandWord (type noteId velocity reserved : Byte) :
    commandOf (commandWord type noteId velocity reserved) =
      if type = 1 then if velocity = 0 then .ok (.noteOnV0 noteId) else .ok (.noteOn noteId velocity)
      else if type = 0 then .ok (.noteOff noteId)
      else .error (.reservedType type) := by
  simp only [commandOf, commandType_commandWord, commandNote_commandWord, commandVelocity_commandWord]

theorem decode_event_recordOfBytes (b0 b1 type noteId velocity reserved : Byte) :
    decode (.event (recordOfBytes b0 b1 type noteId velocity reserved)) =
      (commandOf (commandWord type noteId velocity reserved)).map (Command.toEvent (bigEndian b0 b1)) := by
  simp only [decode, recordCommand_recordOfBytes, recordDelta_recordOfBytes]

/-- A record that decodes carries a command, and decodes to that command's event. -/
theorem commandOf_of_decode_event {b0 b1 type noteId velocity reserved : Byte} {i : Instr}
    (h : decode (.event (recordOfBytes b0 b1 type noteId velocity reserved)) = .ok i) :
    ∃ c, commandOf (commandWord type noteId velocity reserved) = .ok c ∧ i = c.toEvent (bigEndian b0 b1) := by
  rw [decode_event_recordOfBytes] at h
  cases hc : commandOf (commandWord type noteId velocity reserved) with
  | error e => simp [hc, Except.map] at h
  | ok c => exact ⟨c, rfl, by simpa [hc, Except.map] using h.symm⟩

/-- Settles O3: the field reads find the record's bytes, and its command has their type, note and velocity. -/
theorem recordDecode : Obligations.RecordDecode := by
  intro s k b0 b1 type noteId velocity reserved h0 h1 h2 h3 h4
  refine ⟨bigEndian b0 b1, commandWord type noteId velocity 0, readDelta_some h0 h1, toNat_bigEndian b0 b1,
    readCommand_some h2 h3 h4, toNat_commandWord type noteId velocity 0, ?_⟩
  rw [decode_event_recordOfBytes, commandOf_commandWord]
  split
  · split <;> rfl
  · split <;> rfl

/-! ### START (R164) -/

theorem execStart_scheduled {s : State} {now : Nat} {d : Word} (hnow : s.now ≤ now) (hplaying : s.playing = false)
    (hsong : s.songValid = true) (hnext : s.eventIndex.toNat < s.eventCount.toNat)
    (hdelta : readDelta s s.eventIndex.toNat = some d) :
    exec (.start now) s =
      .next (setPlaying true (setDue (now + delayOf s.cfg s.millisPerTick d) (sampleTime now s))) := by
  have hlt : ¬ s.eventCount ≤ s.eventIndex := by
    rw [BitVec.le_def]
    omega
  simp [exec, execStart, Nat.not_lt.mpr hnow, hplaying, hsong, hlt, hdelta]

/-- Settles O39: START comes to its last branch, and the record's two bytes are its `deltaTicks`. -/
theorem startSchedules : Obligations.StartSchedules := by
  intro s now b0 b1 hnow hplaying hsong hnext h0 h1
  rw [execStart_scheduled hnow hplaying hsong hnext (readDelta_some h0 h1), bigEndian_eq_ofNat]
  rfl

/-! ### UPDATE and the record at the cursor (R53, R168) -/

/-- An event record, as an instruction, polls for its command (log 19). -/
theorem exec_toEvent (d : Word) (c : Command) (s : State) :
    exec (c.toEvent d) s = poll (processEvent (runCommand c)) s := by
  cases c with
  | noteOff n => rfl
  | noteOnV0 n => rfl
  | noteOn n v => rfl

theorem execUpdate_in_order {s : State} {now : Nat} (hnow : s.now ≤ now) :
    exec (.update now) s = poll processRecord (sampleTime now s) := by
  simp only [exec, execUpdate, if_neg (Nat.not_lt.mpr hnow)]

/-- A poll depends on what its event does at the state polled. -/
theorem poll_congr {event event' : State → Host.Outcome State Fault Refusal} {s : State} (h : event s = event' s) :
    poll event s = poll event' s := by
  simp only [poll, h]

/-- Settles O45: both poll, and past the tests UPDATE processes the command that the record carries. -/
theorem updateRunsTheRecordAtTheCursor : Obligations.UpdateRunsTheRecordAtTheCursor := by
  intro s now b0 b1 type noteId velocity reserved i hnow h2 h3 h4 hdecode
  obtain ⟨c, hcommand, rfl⟩ := commandOf_of_decode_event hdecode
  rw [commandOf_commandWord_reserved _ _ _ _ 0] at hcommand
  have hrecord : processRecord (sampleTime now s) = processEvent (runCommand c) (sampleTime now s) :=
    processRecord_command (s := sampleTime now s) (readCommand_some h2 h3 h4) hcommand
  calc exec (.update now) s
    _ = poll processRecord (sampleTime now s) := execUpdate_in_order hnow
    _ = poll (processEvent (runCommand c)) (sampleTime now s) := poll_congr hrecord
    _ = exec (c.toEvent (bigEndian b0 b1)) (sampleTime now s) := (exec_toEvent _ c _).symm

end Sys2Proof.Machine
end

section
/-! SUPPORT. The steps that stop (20_memory.md R51; 60_exceptions.md R200; U1, U8, U9, U17): each host call that answers
no next state, with the input it stops on, and no other operation that a step selects. -/

namespace Sys2Proof.Machine

/-- The ways a host call stops, by its label `host_op` (R70). -/
inductive CallStops (s : State) (args : CallArgs) : BitVec 2 → Host.Outcome State Fault Refusal → Prop
  | timeBackwards (op : BitVec 2) (timed : op = 1 ∨ op = 3) (backwards : args.now < s.now) :
      CallStops s args op (.refused .timeRunsBackwards)
  | songTempo (pointer : args.dataPointer ≠ none) (has_records : args.eventCount ≠ 0)
      (not_finite : args.bpm.toNat / 2 ^ 23 % 256 = 255) : CallStops s args 0 (.refused .bpmNotFinite)
  | startDelta (a : Nat) (in_order : s.now ≤ args.now) (stopped : s.playing = false) (song : s.songValid = true)
      (at_record : s.eventIndex.toNat < s.eventCount.toNat)
      (field : a = s.dataPointer + 6 * s.eventIndex.toNat ∨ a = s.dataPointer + 6 * s.eventIndex.toNat + 1)
      (unreadable : readByte s.stream a = none) :
      CallStops s args 1 (.fault (.eventStreamUnreadable s.eventIndex.toNat))
  | reservedRecord (type : Byte) (in_order : s.now ≤ args.now) (playing : s.playing = true)
      (due : s.nextEventDueAt ≤ args.now) (at_record : s.eventIndex.toNat < s.eventCount.toNat)
      (field : readByte s.stream (s.dataPointer + 6 * s.eventIndex.toNat + 2) = some type)
      (reserved : 2 ≤ type.toNat) : CallStops s args 3 (.refused (.undecodable (.reservedType type)))
  | recordCommand (a : Nat) (in_order : s.now ≤ args.now) (playing : s.playing = true)
      (due : s.nextEventDueAt ≤ args.now) (at_record : s.eventIndex.toNat < s.eventCount.toNat)
      (field : a = s.dataPointer + 6 * s.eventIndex.toNat + 2 ∨ a = s.dataPointer + 6 * s.eventIndex.toNat + 3 ∨
        a = s.dataPointer + 6 * s.eventIndex.toNat + 4)
      (unreadable : readByte s.stream a = none) :
      CallStops s args 3 (.fault (.eventStreamUnreadable s.eventIndex.toNat))
  | nextDelta (a : Nat) (in_order : s.now ≤ args.now) (playing : s.playing = true)
      (due : s.nextEventDueAt ≤ args.now) (has_next : s.eventIndex.toNat + 1 < s.eventCount.toNat)
      (field : a = s.dataPointer + 6 * (s.eventIndex.toNat + 1) ∨
        a = s.dataPointer + 6 * (s.eventIndex.toNat + 1) + 1)
      (unreadable : readByte s.stream a = none) :
      CallStops s args 3 (.fault (.eventStreamUnreadable (s.eventIndex.toNat + 1)))

/-! ### What a missing field, a reserved command and a `bpm` without value say -/

/-- Without a `deltaTicks` one of its two bytes has no value. -/
theorem unreadable_of_readDelta {s : State} {k : Nat} (h : readDelta s k = none) :
    ∃ a, (a = s.dataPointer + 6 * k ∨ a = s.dataPointer + 6 * k + 1) ∧ readByte s.stream a = none := by
  by_contra hread
  push Not at hread
  obtain ⟨b0, h0⟩ := Option.ne_none_iff_exists'.mp (hread _ (.inl rfl))
  obtain ⟨b1, h1⟩ := Option.ne_none_iff_exists'.mp (hread _ (.inr rfl))
  simp [readDelta_some h0 h1] at h

/-- Without a command one of its three bytes has no value. -/
theorem unreadable_of_readCommand {s : State} {k : Nat} (h : readCommand s k = none) :
    ∃ a, (a = s.dataPointer + 6 * k + 2 ∨ a = s.dataPointer + 6 * k + 3 ∨ a = s.dataPointer + 6 * k + 4) ∧
      readByte s.stream a = none := by
  by_contra hread
  push Not at hread
  obtain ⟨type, h2⟩ := Option.ne_none_iff_exists'.mp (hread _ (.inl rfl))
  obtain ⟨noteId, h3⟩ := Option.ne_none_iff_exists'.mp (hread _ (.inr (.inl rfl)))
  obtain ⟨velocity, h4⟩ := Option.ne_none_iff_exists'.mp (hread _ (.inr (.inr rfl)))
  simp [readCommand_some h2 h3 h4] at h

/-- The type of a record's command is byte 2 of the record. -/
theorem readByte_of_readCommand {s : State} {k : Nat} {w : BitVec 32} (h : readCommand s k = some w) :
    readByte s.stream (s.dataPointer + 6 * k + 2) = some (commandType w) := by
  unfold readCommand recordBase at h
  split at h
  · next type noteId velocity h2 h3 h4 =>
    obtain rfl := Option.some.inj h
    rw [h2, commandType_commandWord]
  · cases h

/-- A word without a command has a reserved type, which is what the decoder names (R64). -/
theorem commandOf_error {w : BitVec 32} {e : DecodeError} (h : commandOf w = .error e) :
    2 ≤ (commandType w).toNat ∧ e = .reservedType (commandType w) := by
  have hreserved : 2 ≤ (commandType w).toNat := by
    by_contra hlt
    obtain ⟨c, hc⟩ := commandOf_command (Nat.not_le.mp hlt)
    simp [hc] at h
  rw [commandOf_reserved hreserved] at h
  exact ⟨hreserved, (Except.error.inj h).symm⟩

/-- Only the exponent that stands for a NaN or an infinity has no value. -/
theorem exponent_of_binary32Value_none {bits : BitVec 32} (h : binary32Value bits = none) :
    bits.toNat / 2 ^ 23 % 256 = 255 := by
  have hexp : (bits.extractLsb' 23 8).toNat = 255 := by
    by_contra hne
    simp only [binary32Value, if_neg hne, reduceCtorEq] at h
  rwa [BitVec.extractLsb'_toNat, Nat.shiftRight_eq_div_pow] at hexp

/-! ### Each host call completes or stops in one of these ways -/

theorem execLoadSong_completes_or_stops (s : State) (args : CallArgs) :
    (∃ t, execLoadSong args.dataPointer args.eventCount args.bpm s = .next t) ∨
      CallStops s args 0 (execLoadSong args.dataPointer args.eventCount args.bpm s) := by
  unfold execLoadSong
  split
  · exact .inl ⟨_, rfl⟩
  · next p hp =>
    split
    · exact .inl ⟨_, rfl⟩
    · next hc =>
      split
      · next hbpm => exact .inr (.songTempo (by simp [hp]) hc (exponent_of_binary32Value_none hbpm))
      · exact .inl ⟨_, rfl⟩

theorem execStart_completes_or_stops (s : State) (args : CallArgs) :
    (∃ t, execStart args.now s = .next t) ∨ CallStops s args 1 (execStart args.now s) := by
  unfold execStart
  split
  · next hnow => exact .inr (.timeBackwards 1 (.inl rfl) hnow)
  · next hnow =>
    split
    · exact .inl ⟨_, rfl⟩
    · next hon =>
      simp only [Bool.or_eq_true, Bool.not_eq_true', not_or, Bool.not_eq_true, Bool.not_eq_false] at hon
      obtain ⟨stopped, song⟩ := hon
      split
      · exact .inl ⟨_, rfl⟩
      · next hc =>
        split
        · next hdelta =>
          obtain ⟨a, field, unreadable⟩ := unreadable_of_readDelta hdelta
          exact .inr (.startDelta a (Nat.not_lt.mp hnow) stopped song (BitVec.not_le.mp hc) field unreadable)
        · exact .inl ⟨_, rfl⟩

/-- UPDATE's tests complete the poll, or the event decides (R168). -/
theorem poll_completes_or_runs (event : State → Host.Outcome State Fault Refusal) (s : State) :
    (∃ t, poll event s = .next t) ∨
      s.playing = true ∧ s.nextEventDueAt ≤ s.now ∧ s.eventIndex < s.eventCount ∧ poll event s = event s := by
  rcases poll_cases event s with ⟨-, h⟩ | ⟨-, -, h⟩ | ⟨-, -, -, h⟩ | h
  · exact .inl ⟨_, h⟩
  · exact .inl ⟨_, h⟩
  · exact .inl ⟨_, h⟩
  · exact .inr h

/-- A dispatched command completes unless the next record's `deltaTicks` is missing (R168 (6)). -/
theorem processEvent_completes_or_faults (c : Command) {s : State} (at_record : s.eventIndex < s.eventCount) :
    (∃ t, processEvent (runCommand c) s = .next t) ∨
      s.eventIndex.toNat + 1 < s.eventCount.toNat ∧ readDelta s (s.eventIndex.toNat + 1) = none ∧
        processEvent (runCommand c) s = .fault (.eventStreamUnreadable (s.eventIndex.toNat + 1)) := by
  have hidx : (s.eventIndex + 1).toNat = s.eventIndex.toNat + 1 := by bv_omega
  unfold processEvent
  rcases reschedule_cases (advanceCursor (runCommand c s)) with ⟨-, h⟩ | ⟨-, d, -, h⟩ | ⟨hnext, hdelta, h⟩
  · exact .inl ⟨_, h⟩
  · exact .inl ⟨_, h⟩
  · rw [readDelta_congr (t := s) (by simp) (by simp)] at hdelta
    simp only [advanceCursor_eventIndex, advanceCursor_eventCount, runCommand_eventIndex, runCommand_eventCount,
      BitVec.lt_def, hidx] at hnext hdelta h
    exact .inr ⟨hnext, hdelta, h⟩

theorem execUpdate_completes_or_stops (s : State) (args : CallArgs) :
    (∃ t, execUpdate args.now s = .next t) ∨ CallStops s args 3 (execUpdate args.now s) := by
  unfold execUpdate
  split
  · next hnow => exact .inr (.timeBackwards 3 (.inr rfl) hnow)
  · next hnow =>
    have in_order := Nat.not_lt.mp hnow
    rcases poll_completes_or_runs processRecord (sampleTime args.now s) with h | ⟨playing, due, at_record, h⟩
    · exact .inl h
    · rw [h]
      rcases processRecord_cases (sampleTime args.now s) with ⟨hw, h⟩ | ⟨w, e, hw, hc, h⟩ | ⟨w, c, -, -, h⟩ <;> rw [h]
      · obtain ⟨a, field, unreadable⟩ := unreadable_of_readCommand hw
        exact .inr (.recordCommand a in_order playing due at_record field unreadable)
      · obtain ⟨reserved, rfl⟩ := commandOf_error hc
        exact .inr (.reservedRecord _ in_order playing due at_record (readByte_of_readCommand hw) reserved)
      · rcases processEvent_completes_or_faults c at_record with h | ⟨has_next, hdelta, h⟩
        · exact .inl h
        · rw [h]
          obtain ⟨a, field, unreadable⟩ := unreadable_of_readDelta hdelta
          exact .inr (.nextDelta a in_order playing due has_next field unreadable)

theorem execStop_completes (s : State) : ∃ t, execStop s = .next t := by
  unfold execStop
  split
  · exact ⟨_, rfl⟩
  · exact ⟨_, rfl⟩

/-- The label of a host call has four values (R70). -/
theorem hostOp_cases (op : BitVec 2) : op = 0 ∨ op = 1 ∨ op = 2 ∨ op = 3 := by bv_omega

theorem exec_callOf_completes_or_stops (s : State) (op : BitVec 2) (args : CallArgs) :
    (∃ t, exec (callOf op args) s = .next t) ∨ CallStops s args op (exec (callOf op args) s) := by
  rcases hostOp_cases op with rfl | rfl | rfl | rfl
  · exact execLoadSong_completes_or_stops s args
  · exact execStart_completes_or_stops s args
  · exact .inl (execStop_completes s)
  · exact execUpdate_completes_or_stops s args

/-! ### The step -/

/-- A command of a word completes (R100). -/
theorem exec_toInstr_completes (c : Command) (s : State) : ∃ t, exec c.toInstr s = .next t := by
  cases c with
  | noteOff n => exact ⟨_, rfl⟩
  | noteOnV0 n => exact ⟨_, rfl⟩
  | noteOn n v => exact ⟨_, rfl⟩

/-- The producer's step that the handshake selects has its precondition (R120, R141, R143, R144). -/
theorem exec_handshakeOf_completes {s : State} {valid : Bool} (h : s.pcmValid = valid) (ready : Bool) :
    ∃ t, exec (handshakeOf (handshakePattern valid ready)) s = .next t := by
  rw [handshakeOf_pattern]
  cases valid with
  | false => exact ⟨render s, by simp [exec, execRender, h]⟩
  | true =>
    cases ready with
    | false => exact ⟨s, by simp [exec, execHold, h]⟩
    | true => exact ⟨outputFrame s, by simp [exec, execEmit, h]⟩

/-- The state with the inputs of the coming step taken, the first queued input among them. -/
def takeInput (rest : List Input) (s : State) : State := { s with rstLine := s.rstLine.tail, inputs := rest }

/-- A step in a configuration of R6 completes, or what it selects is the first queued input. -/
theorem step_completes_or_takes_input {s : State} (hc : configInRange s.cfg = true) :
    (∃ t, step s = .next t) ∨ ∃ inp rest, NextInput s inp rest ∧
      step s = match decode (inp.encoded s.pcmValid) with
        | .ok i => exec i (takeInput rest s)
        | .error e => .refused (.undecodable e) := by
  cases hl : s.launch with
  | guardFailed =>
    exact .inl ⟨{ report .mutexAcquisitionFailure s with launch := .aborted }, by simp only [step, hc, hl, if_true]⟩
  | aborted => exact .inl ⟨s, by simp only [step, hc, hl, if_true]⟩
  | guardOk =>
    have hrun : Running s := ⟨hc, hl⟩
    rcases fetch_cases s with ⟨-, hsel⟩ | ⟨hrst, inp, hmem, hsel⟩ | ⟨hrst, ready, hsel⟩
    · exact .inl ⟨resetBlock (fetch s).2, by rw [step_running hrun, hsel]; rfl⟩
    · obtain ⟨first, rest, hin⟩ := List.exists_cons_of_ne_nil (List.ne_nil_of_mem hmem)
      exact .inr ⟨first, rest, ⟨hrun, hrst, hin⟩, by rw [step_running hrun, fetch_input hrst hin]; rfl⟩
    · obtain ⟨t, ht⟩ := exec_handshakeOf_completes (s := (fetch s).2) (by rw [fetch_state]) ready
      exact .inl ⟨t, by rw [step_running hrun, hsel]; exact ht⟩

/-- What a step stops on: a command word of a reserved type, or a host call that stops. -/
theorem step_completes_or_stops {s : State} (hc : configInRange s.cfg = true) :
    (∃ t, step s = .next t) ∨ ∃ inp rest, NextInput s inp rest ∧
      ((∃ w, inp = .command w ∧ 2 ≤ w.toNat / 2 ^ 24) ∨
        ∃ op args, inp = .hostCall op args ∧ CallStops (takeInput rest s) args op (step s)) := by
  rcases step_completes_or_takes_input hc with h | ⟨inp, rest, hnext, hstep⟩
  · exact .inl h
  · cases inp with
    | command w =>
      by_cases hw : 2 ≤ w.toNat / 2 ^ 24
      · exact .inr ⟨_, rest, hnext, .inl ⟨w, rfl, hw⟩⟩
      · obtain ⟨c, hcommand⟩ := commandOf_command (w := w) (by rw [toNat_commandType]; exact Nat.not_le.mp hw)
        obtain ⟨t, ht⟩ := exec_toInstr_completes c (takeInput rest s)
        simp only [Input.encoded, decode, hcommand, Except.map, ht] at hstep
        exact .inl ⟨t, hstep⟩
    | noteOnCall n v => exact .inl ⟨_, hstep⟩
    | noteOffCall n => exact .inl ⟨_, hstep⟩
    | producer ready =>
      obtain ⟨t, ht⟩ := exec_handshakeOf_completes (s := takeInput rest s) rfl ready
      exact .inl ⟨t, hstep.trans ht⟩
    | hostCall op args =>
      simp only [Input.encoded, decode] at hstep
      rw [hstep]
      rcases exec_callOf_completes_or_stops (takeInput rest s) op args with h | h
      · exact .inl h
      · exact .inr ⟨_, rest, hnext, .inr ⟨op, args, rfl, h⟩⟩

/-- Settles O11: a step that stops does so on a reserved command word or in a host call, and each of the call's stops is
one that the statement lists. -/
theorem stopsAreTheSpecsOwn : Obligations.StopsAreTheSpecsOwn := by
  intro s ⟨hc, _⟩
  refine ⟨fun r hr => ?_, fun f hf => ?_⟩
  · rcases step_completes_or_stops hc with ⟨t, ht⟩ | ⟨inp, rest, hnext, ⟨w, rfl, hw⟩ | ⟨op, args, rfl, hstop⟩⟩
    · simp [hr] at ht
    · rw [step_reserved_command hnext hw, Host.Outcome.refused.injEq] at hr
      exact ⟨_, rest, hnext, .inl ⟨w, rfl, hw, hr.symm⟩⟩
    · refine ⟨_, rest, hnext, .inr ?_⟩
      rw [hr] at hstop
      cases hstop with
      | reservedRecord type in_order playing due at_record field reserved =>
        exact .inl ⟨args, type, rfl, in_order, playing, due, at_record, field, reserved, rfl⟩
      | songTempo pointer has_records not_finite =>
        exact .inr (.inl ⟨args, rfl, pointer, has_records, not_finite, rfl⟩)
      | timeBackwards _ timed backwards => exact .inr (.inr ⟨op, args, timed, rfl, backwards, rfl⟩)
  · rcases step_completes_or_stops hc with ⟨t, ht⟩ | ⟨inp, rest, hnext, ⟨w, rfl, hw⟩ | ⟨op, args, rfl, hstop⟩⟩
    · simp [hf] at ht
    · simp [step_reserved_command hnext hw] at hf
    · rw [hf] at hstop
      cases hstop with
      | startDelta a in_order stopped song at_record field unreadable =>
        exact ⟨1, args, rest, _, a, hnext, in_order, rfl, at_record, unreadable,
          .inl ⟨rfl, stopped, song, rfl, field⟩⟩
      | recordCommand a in_order playing due at_record field unreadable =>
        exact ⟨3, args, rest, _, a, hnext, in_order, rfl, at_record, unreadable,
          .inr ⟨rfl, playing, due, .inl ⟨rfl, field⟩⟩⟩
      | nextDelta a in_order playing due has_next field unreadable =>
        exact ⟨3, args, rest, _, a, hnext, in_order, rfl, has_next, unreadable,
          .inr ⟨rfl, playing, due, .inr ⟨rfl, field⟩⟩⟩

end Sys2Proof.Machine
end

section
/-! SUPPORT. The decoder against the encoder and against the word as a number (30_encoding.md R60 to R65, R73). -/

namespace Sys2Proof.Machine

/-! ### Command words by their fields (R62) -/

theorem decode_command_noteOff {w : BitVec 32} (ht : commandType w = 0) :
    decode (.command w) = .ok (.noteOff (commandNote w).toNat) := by
  rw [decode, commandOf, if_neg (by simp [ht]), if_pos ht]
  rfl

theorem decode_command_noteOnV0 {w : BitVec 32} (ht : commandType w = 1) (hv : commandVelocity w = 0) :
    decode (.command w) = .ok (.noteOnV0 (commandNote w)) := by
  rw [decode, commandOf, if_pos ht, if_pos hv]
  rfl

theorem decode_command_noteOn {w : BitVec 32} (ht : commandType w = 1) (hv : commandVelocity w ≠ 0) :
    decode (.command w) = .ok (.noteOn (commandNote w).toNat (commandVelocity w).toNat) := by
  rw [decode, commandOf, if_pos ht, if_neg hv]
  rfl

theorem decode_command_reserved {w : BitVec 32} (h : 2 ≤ (commandType w).toNat) :
    decode (.command w) = .error (.reservedType (commandType w)) := by
  simp only [decode, commandOf_reserved h, Except.map]

/-- Settles O2: the fields of the word are its quotients and remainders, and each clause is one branch of R62. -/
theorem commandWordDecode : Obligations.CommandWordDecode := by
  intro w type noteId velocity
  have htype : (commandType w).toNat = type := toNat_commandType w
  have hnote : (commandNote w).toNat = noteId := toNat_commandNote w
  have hvelocity : (commandVelocity w).toNat = velocity := toNat_commandVelocity w
  have hbyte : BitVec.ofNat 8 noteId = commandNote w := by rw [← hnote, BitVec.ofNat_toNat, BitVec.setWidth_eq]
  refine ⟨fun ht hv => ?_, fun ht hv => ⟨?_, fun s => ?_⟩, fun ht => ?_, fun ht => ?_⟩
  · have hv' : commandVelocity w ≠ 0 := fun h0 => by simp [← hvelocity, h0] at hv
    rw [decode_command_noteOn (BitVec.eq_of_toNat_eq (htype.trans ht)) hv', hnote, hvelocity]
  · rw [decode_command_noteOnV0 (BitVec.eq_of_toNat_eq (htype.trans ht)) (BitVec.eq_of_toNat_eq (hvelocity.trans hv)),
      hbyte]
  · rw [hbyte, ← hnote]
    rfl
  · rw [decode_command_noteOff (BitVec.eq_of_toNat_eq (htype.trans ht)), hnote]
  · exact ⟨_, decode_command_reserved (by rwa [htype])⟩

/-! ### The round trip (R60 to R70, R73) -/

/-- A byte that holds a number other than 0 is not 0. -/
theorem ofInt_ne_zero_of_fitsByte {x : Int} (h : fitsByte x = true) (hx : x ≠ 0) : BitVec.ofInt 8 x ≠ 0 := by
  intro h0
  have hval := toNat_ofInt_of_fitsByte h
  rw [h0] at hval
  exact hx hval.symm

theorem decode_encode_noteOff (n : Int) : decode (encode (.noteOff n)) = .ok (.noteOff n) := by
  rw [encode]
  split
  · next hn =>
    rw [decode_command_noteOff (commandType_commandWord ..), commandNote_commandWord, toNat_ofInt_of_fitsByte hn]
  · rfl

theorem decode_encode_noteOnV0 (n : Byte) : decode (encode (.noteOnV0 n)) = .ok (.noteOnV0 n) := by
  rw [encode, decode_command_noteOnV0 (commandType_commandWord ..) (commandVelocity_commandWord ..),
    commandNote_commandWord]

/-- A velocity of 0 goes by the call, since in a command word it would be NOTE_ON_V0 (R62). -/
theorem decode_encode_noteOn (n v : Int) : decode (encode (.noteOn n v)) = .ok (.noteOn n v) := by
  rw [encode]
  split
  · next h =>
    simp only [Bool.and_eq_true, bne_iff_ne] at h
    obtain ⟨⟨hn, hv⟩, hloud⟩ := h
    have hv' : commandVelocity (commandWord 1 (BitVec.ofInt 8 n) (BitVec.ofInt 8 v) 0) ≠ 0 := by
      rw [commandVelocity_commandWord]
      exact ofInt_ne_zero_of_fitsByte hv hloud
    rw [decode_command_noteOn (commandType_commandWord ..) hv', commandNote_commandWord, commandVelocity_commandWord,
      toNat_ofInt_of_fitsByte hn, toNat_ofInt_of_fitsByte hv]
  · rfl

/-- An event record decodes by the command word it carries (R60). -/
theorem decode_event_append (d : Word) (w : BitVec 32) :
    decode (.event (d ++ w)) = (commandOf w).map (Command.toEvent d) := by
  rw [decode, recordCommand_append, recordDelta_append]

theorem decode_encode_evOff (d : Word) (n : Byte) : decode (encode (.evOff d n)) = .ok (.evOff d n) := by
  rw [encode, decode_event_append, commandOf_commandWord]
  rfl

theorem decode_encode_evOnV0 (d : Word) (n : Byte) : decode (encode (.evOnV0 d n)) = .ok (.evOnV0 d n) := by
  rw [encode, decode_event_append, commandOf_commandWord]
  rfl

theorem decode_encode_evOn (d : Word) (n : Byte) {v : Byte} (hv : v ≠ 0) :
    decode (encode (.evOn d n v)) = .ok (.evOn d n v) := by
  rw [encode, decode_event_append, commandOf_commandWord, if_pos rfl, if_neg hv]
  rfl

/-- Settles O1, instruction by instruction: the words and records by their fields; the handshake, reset and call forms
hold their operands as they are. -/
theorem decodeOfEncode : Obligations.DecodeOfEncode := by
  intro i hwf
  cases i with
  | noteOff n => exact decode_encode_noteOff n
  | noteOnV0 n => exact decode_encode_noteOnV0 n
  | noteOn n v => exact decode_encode_noteOn n v
  | evOff d n => exact decode_encode_evOff d n
  | evOnV0 d n => exact decode_encode_evOnV0 d n
  | evOn d n v => exact decode_encode_evOn d n (bne_iff_ne.mp hwf)
  | render => rfl
  | emit => rfl
  | hold => rfl
  | reset => rfl
  | loadSong p c bits => rfl
  | start now => rfl
  | stop => rfl
  | update now => rfl

/-- Settles O4: closed words, evaluated. -/
theorem specWordsDecode : Obligations.SpecWordsDecode := by
  unfold Obligations.SpecWordsDecode
  decide

end Sys2Proof.Machine
end

section
/-! SUPPORT. The command words' operations (30_encoding.md R62, R69; 40_voice_commands.md R104, R107, R109, R110):
NOTE_OFF by what the scan finds, and that NOTE_ON of a command word is not rejected. -/

namespace Sys2Proof.Machine

/-! ### NOTE_OFF (R109, R110) -/

/-- The first voice that sounds the note stops. -/
theorem noteOff_of_first {s : State} {noteId : Int} {r : Nat} {v : Voice} (hr : s.voices[r]? = some v)
    (hv : Sounds v noteId) (first : ∀ (i : Nat) (w : Voice), i < r → s.voices[i]? = some w → ¬ Sounds w noteId) :
    noteOff noteId s = setVoices (s.voices.set r v.deactivate) s := by
  rw [noteOff, silenceNote_some hr hv first]

/-- With no voice that sounds the note nothing changes. -/
theorem noteOff_of_silent {s : State} {noteId : Int} (h : ∀ w ∈ s.voices, ¬ Sounds w noteId) :
    noteOff noteId s = s := by
  rw [noteOff, silenceNote_none h]
  rfl

/-- Settles O14: the two cases of NOTE_OFF. -/
theorem noteOnV0IsNoteOff : Obligations.NoteOnV0IsNoteOff := by
  intro s noteId
  refine ⟨fun r v hr hv first => ?_, fun h => ?_⟩
  · rw [exec, execNoteOnV0, noteOff_of_first hr hv first]
    rfl
  · rw [exec, execNoteOnV0, noteOff_of_silent h]

/-! ### NOTE_ON of a command word (R104, R107, R203) -/

/-- In every build a note from 0 up has a positive frequency (R105). -/
theorem freqOf_isNonPositive_of_nonneg (cfg : Config) {noteId : Int} (h : 0 ≤ noteId) :
    (freqOf cfg noteId).isNonPositive = false := by
  have hlow : ¬ noteId < 0 := Int.not_lt.mpr h
  cases hn : cfg.numerics <;> simp [freqOf, hn, hlow, Frequency.isNonPositive]

theorem one_le_clampVelocity {velocity : Int} (h : 1 ≤ velocity) : 1 ≤ clampVelocity velocity := by
  rw [clampVelocity, clamp_eq (by decide)]
  omega

/-- With `A_MAX` of 64 or more only a velocity of 0 or less has the amplitude 0 (R203). -/
theorem ampOf_clampVelocity_ne_zero {cfg : Config} (ha : 64 ≤ cfg.aMax) {velocity : Int} (h : 1 ≤ velocity) :
    ampOf cfg (clampVelocity velocity) ≠ 0 := by
  intro hzero
  rw [ampOf_eq_zero_iff (by omega)] at hzero
  have : 1 * 64 ≤ clampVelocity velocity * cfg.aMax := Nat.mul_le_mul (one_le_clampVelocity h) ha
  rw [mul_assoc] at hzero
  omega

/-- A table full after a note was silenced was full before: a slot silenced would be free. -/
theorem all_active_of_silenceNote {noteId : Int} {vs : List Voice}
    (h : ∀ w ∈ silenceNote noteId vs, w.active = true) : ∀ w ∈ vs, w.active = true := by
  rcases silenceNote_cases noteId vs with ⟨heq, -⟩ | ⟨r, v, hr, -, heq, -⟩ <;> rw [heq] at h
  · exact h
  · obtain ⟨hlt, -⟩ := List.getElem?_eq_some_iff.mp hr
    have hfreed := h v.deactivate (List.mem_set hlt _)
    cases hfreed

/-- A new voice sounds the note it was made for, when that fits the register (R11, R108). -/
theorem sounds_newVoice (cfg : Config) (vs : List Voice) {noteId : Int} (h : fitsByte noteId = true) (amplitude : Nat) :
    Sounds (newVoice cfg vs noteId amplitude) noteId := by
  refine ⟨rfl, ?_⟩
  rw [newVoice, noteRegister, if_pos h]
  exact toNat_ofInt_of_fitsByte h

/-- Settles O56: of NOTE_ON's outcomes the rejection needs an amplitude of 0 or a frequency that is not positive, and a
command word has neither. -/
theorem commandWordsAreNotRejected : Obligations.CommandWordsAreNotRejected := by
  intro s noteId velocity ha hv
  have hvelocity : 1 ≤ (velocity.toNat : Int) := by
    have : velocity.toNat ≠ 0 := fun h0 => hv (BitVec.eq_of_toNat_eq h0)
    omega
  refine ⟨noteOn noteId.toNat velocity.toNat s, rfl, ?_⟩
  rcases noteOn_cases noteId.toNat velocity.toNat s with
    ⟨heq, hfull⟩ | ⟨j, w, hj, -, -, ⟨hrejected, -⟩ | ⟨-, -, heq⟩⟩
  · rw [heq]
    exact .inr ⟨rfl, all_active_of_silenceNote hfull⟩
  · rw [freqOf_isNonPositive_of_nonneg _ (Int.natCast_nonneg _)] at hrejected
    simp [ampOf_clampVelocity_ne_zero ha hvelocity] at hrejected
  · rw [heq]
    obtain ⟨hlt, -⟩ := List.getElem?_eq_some_iff.mp hj
    exact .inl ⟨rfl, _, List.mem_set hlt _, sounds_newVoice _ _ (fitsByte_toNat noteId) _⟩

/-! ### The reset line (R69, R230) -/

/-- Settles O8: the level selects RESET, and taking it leaves the queued inputs alone. -/
theorem resetLineOverridesEverything : Obligations.ResetLineOverridesEverything := by
  intro s rest hrun hrst
  have hstep : step s = exec .reset { s with rstLine := rest } := by
    rw [step_running hrun, fetch_reset hrst]
    rfl
  refine ⟨hstep, _, hstep, rfl, ?_⟩
  simp [cmdReady, rstLevel, hrst]

end Sys2Proof.Machine
end

section
/-! SUPPORT. A due record's command is dispatched (30_encoding.md R62; 43_host_sequencer.md R168 (4) to (6), R169,
R170): what the event then answers, for UPDATE and for an event record alike. -/

namespace Sys2Proof.Machine

/-! ### Dispatch, advance, reschedule -/

/-- Within the song the cursor does not wrap as it advances: whether a next record follows is read off the old
cursor. -/
theorem cursor_within_song_iff (c : Command) {s : State} (h : s.eventIndex.toNat < s.eventCount.toNat) :
    (advanceCursor (runCommand c s)).eventIndex < (advanceCursor (runCommand c s)).eventCount ↔
      s.eventIndex.toNat + 1 < s.eventCount.toNat := by
  rw [advanceCursor_eventIndex, advanceCursor_eventCount, runCommand_eventIndex, runCommand_eventCount]
  bv_omega

/-- The song's last event leaves the due time as it is (R168 (6)). -/
theorem processEvent_last (c : Command) {s : State} (hlast : s.eventIndex.toNat + 1 = s.eventCount.toNat) :
    processEvent (runCommand c) s = .next { runCommand c s with
      eventIndex := s.eventIndex + 1
      returns := s.returns ++ [.stillPlaying true] } := by
  rw [processEvent, reschedule, if_neg (by rw [cursor_within_song_iff c (by omega)]; omega)]
  simp [returnValue, advanceCursor]

/-- Any other event schedules the next one from the time sampled (R168 (6), R170). -/
theorem processEvent_scheduled (c : Command) {s : State} {d : Word}
    (hnext : s.eventIndex.toNat + 1 < s.eventCount.toNat) (hdelta : readDelta s (s.eventIndex.toNat + 1) = some d) :
    processEvent (runCommand c) s = .next { runCommand c s with
      eventIndex := s.eventIndex + 1
      nextEventDueAt := s.now + delayOf s.cfg s.millisPerTick d
      returns := s.returns ++ [.stillPlaying true] } := by
  have hread : readDelta (advanceCursor (runCommand c s)) (advanceCursor (runCommand c s)).eventIndex.toNat =
      some d := by
    have hindex : (s.eventIndex + 1).toNat = s.eventIndex.toNat + 1 := by bv_omega
    rw [advanceCursor_eventIndex, runCommand_eventIndex, hindex, ← hdelta]
    exact readDelta_congr (by simp) (by simp) _
  rw [processEvent, reschedule, if_pos ((cursor_within_song_iff c (by omega)).mpr hnext), hread]
  simp [returnValue, setDue, advanceCursor]

/-! ### UPDATE (R168, R169) -/

/-- The command of a record of type 0 or 1 is the note-on of its bytes, or else the note-off (R62). -/
theorem commandOf_dispatched {type : Byte} (noteId velocity : Byte) (ht : type = 0 ∨ type = 1) :
    ∃ c, commandOf (commandWord type noteId velocity 0) = .ok c ∧
      ∀ s, exec (if type = 1 ∧ velocity ≠ 0 then .noteOn noteId.toNat velocity.toNat else .noteOff noteId.toNat) s =
        .next (runCommand c s) := by
  rw [commandOf_commandWord]
  rcases ht with rfl | rfl
  · exact ⟨.noteOff noteId, rfl, fun s => rfl⟩
  · by_cases hv : velocity = 0
    · exact ⟨.noteOnV0 noteId, by rw [if_pos rfl, if_pos hv], fun s => by rw [if_neg (by simp [hv])]; rfl⟩
    · exact ⟨.noteOn noteId velocity, by rw [if_pos rfl, if_neg hv], fun s => by rw [if_pos ⟨rfl, hv⟩]; rfl⟩

/-- Settles O43: past UPDATE's tests the record at the cursor is processed, from the time sampled. -/
theorem updateDispatches : Obligations.UpdateDispatches := by
  intro s now type noteId velocity hnow hplaying hdue hrecord h2 h3 h4 ht
  obtain ⟨c, hc, hexec⟩ := commandOf_dispatched noteId velocity ht
  have hupdate : exec (.update now) s = processEvent (runCommand c) (sampleTime now s) :=
    (execUpdate_due hnow hplaying hdue hrecord).trans
      (processRecord_command (s := sampleTime now s) (readCommand_some h2 h3 h4) hc)
  refine ⟨runCommand c (sampleTime now s), hexec _, fun hlast => ?_, fun b0 b1 hnext h0 h1 => ?_⟩
  · rw [hupdate, processEvent_last c (s := sampleTime now s) hlast]
    rfl
  · rw [hupdate, processEvent_scheduled c (s := sampleTime now s) hnext (readDelta_some h0 h1), bigEndian_eq_ofNat]
    rfl

/-! ### The event records (log 19) -/

/-- Settles O44: past the tests an event processes its own command, from the time last sampled. -/
theorem eventRecordsDispatch : Obligations.EventRecordsDispatch := by
  intro s d noteId velocity ev command hev hplaying hdue hrecord
  have hcommand : ∃ c : Command, ev = c.toEvent d ∧ exec command s = .next (runCommand c s) := by
    simp only [List.mem_cons, List.not_mem_nil, or_false, Prod.mk.injEq] at hev
    rcases hev with ⟨rfl, rfl⟩ | ⟨rfl, rfl⟩ | ⟨rfl, rfl⟩
    · exact ⟨.noteOff noteId, rfl, rfl⟩
    · exact ⟨.noteOnV0 noteId, rfl, rfl⟩
    · exact ⟨.noteOn noteId velocity, rfl, rfl⟩
  obtain ⟨c, rfl, hexec⟩ := hcommand
  have hevent : exec (c.toEvent d) s = processEvent (runCommand c) s :=
    (exec_toEvent d c s).trans (poll_due hplaying hdue hrecord)
  refine ⟨runCommand c s, hexec, fun hlast => ?_, fun b0 b1 hnext h0 h1 => ?_⟩
  · rw [hevent, processEvent_last c hlast]
  · rw [hevent, processEvent_scheduled c hnext (readDelta_some h0 h1), bigEndian_eq_ofNat]

end Sys2Proof.Machine
end

section
/-! SUPPORT. What the voice commands write (40_voice_commands.md R101 to R111): the slot that NOTE_OFF frees, the slot
that NOTE_ON takes, what a dropped or rejected note leaves, and that no other voice is touched. -/

namespace Sys2Proof.Machine

/-! ### NOTE_OFF (R109, R110) -/

/-- Settles O12: the scan stops at that slot. -/
theorem noteOffFreesTheFirstMatch : Obligations.NoteOffFreesTheFirstMatch := by
  intro s noteId r v hr hv first
  rw [exec, execNoteOff, noteOff_of_first hr hv first]
  rfl

/-- Settles O13: the scan finds nothing to silence. -/
theorem noteOffWithoutMatchDoesNothing : Obligations.NoteOffWithoutMatchDoesNothing := by
  intro s noteId h
  rw [exec, execNoteOff, noteOff_of_silent h]

/-! ### The retrigger (R102) -/

/-- With no note in two slots one NOTE_OFF silences the note. -/
theorem noteOff_noteOff {s : State} (h : Exclusive s.voices) (noteId : Int) :
    noteOff noteId (noteOff noteId s) = noteOff noteId s :=
  noteOff_of_silent (not_sounds_silenceNote h noteId)

/-- NOTE_ON depends on the state that its retrigger leaves only. -/
theorem noteOn_congr {s t : State} {noteId : Int} (h : noteOff noteId s = noteOff noteId t) (velocity : Int) :
    noteOn noteId velocity s = noteOn noteId velocity t := by
  have hcfg : s.cfg = t.cfg := by simpa using congrArg State.cfg h
  simp only [noteOn, h, hcfg]

/-- Settles O16: after NOTE_OFF the retrigger of NOTE_ON changes nothing more. -/
theorem retriggerIsNoteOffFirst : Obligations.RetriggerIsNoteOffFirst := by
  intro s noteId velocity hexclusive
  refine ⟨noteOff noteId s, noteOn noteId velocity s, rfl, rfl, ?_⟩
  rw [exec, execNoteOn, noteOn_congr (noteOff_noteOff hexclusive noteId)]

/-! ### The slot NOTE_ON takes (R103 to R108) -/

theorem noteOn_accepted {noteId velocity : Int} {s : State} {j : Nat}
    (hfree : findFree (silenceNote noteId s.voices) = some j) (hfreq : (freqOf s.cfg noteId).isNonPositive = false)
    (hamp : ampOf s.cfg (clampVelocity velocity) ≠ 0) :
    noteOn noteId velocity s = setVoices ((silenceNote noteId s.voices).set j
      (newVoice s.cfg (silenceNote noteId s.voices) noteId (ampOf s.cfg (clampVelocity velocity)))) s := by
  rw [noteOn_free velocity hfree, if_neg (by simp [noteRejected, hfreq, hamp])]

/-- A note 0..255 is stored as it is, and in every build with its frequency (R11, R105). -/
theorem newVoice_of_fitsByte (cfg : Config) (vs : List Voice) {noteId : Int} (h : fitsByte noteId = true)
    (amplitude : Nat) : newVoice cfg vs noteId amplitude =
      { active := true
        noteId := BitVec.ofInt 8 noteId
        frequency := .ofNote noteId
        targetAmplitude := BitVec.ofNat 16 amplitude
        currentLevel := BitVec.ofNat 16 amplitude
        halfPeriodSamples := halfPeriodOf cfg noteId
        samplesUntilFlip := halfPeriodOf cfg noteId } := by
  have h0 : 0 ≤ noteId := by
    simp only [fitsByte, Bool.and_eq_true, decide_eq_true_eq] at h
    exact h.1
  rw [newVoice, noteRegister, if_pos h, freqOf_eq_ofNote (freqOf_isNonPositive_of_nonneg cfg h0)]

/-- Settles O15: with nothing to silence, the free slot found is the lowest of the table as it was. -/
theorem noteOnTakesTheLowestFreeSlot : Obligations.NoteOnTakesTheLowestFreeSlot := by
  intro s noteId velocity j v h0 h255 hsilent hj hv first amplitude hamp
  have hsil : silenceNote noteId s.voices = s.voices := silenceNote_none hsilent
  have hfree : findFree (silenceNote noteId s.voices) = some j := by rw [hsil, findFree_some hj hv first]
  have hfits : fitsByte noteId = true := by simp [fitsByte, h0, h255]
  rw [exec, execNoteOn, noteOn_accepted hfree (freqOf_isNonPositive_of_nonneg _ h0) hamp, hsil,
    newVoice_of_fitsByte _ _ hfits]
  rfl

/-- In a full table the slot just silenced is the one that is free (R102, R103). -/
theorem findFree_set_deactivate {vs : List Voice} (hall : ∀ w ∈ vs, w.active = true) {r : Nat} {v : Voice}
    (hr : vs[r]? = some v) : findFree (vs.set r v.deactivate) = some r := by
  obtain ⟨hlt, -⟩ := List.getElem?_eq_some_iff.mp hr
  refine findFree_some (v := v.deactivate) (by simp [hlt]) rfl fun i w hi hw => ?_
  rw [List.getElem?_set_ne (by omega)] at hw
  exact hall w (List.mem_of_getElem? hw)

/-- Settles O17: the retrigger frees the note's own slot, and the new voice takes it. -/
theorem retriggerAtAFullPoolSucceeds : Obligations.RetriggerAtAFullPoolSucceeds := by
  intro s noteId velocity r v hall hr hv first amplitude hamp
  have hsil : silenceNote noteId s.voices = s.voices.set r v.deactivate := silenceNote_some hr hv first
  have hfree : findFree (silenceNote noteId s.voices) = some r := by rw [hsil, findFree_set_deactivate hall hr]
  obtain ⟨-, rfl⟩ := hv
  have hstored : BitVec.ofInt 8 v.noteId.toNat = v.noteId := by simp
  rw [exec, execNoteOn, noteOn_accepted hfree (freqOf_isNonPositive_of_nonneg _ (Int.natCast_nonneg _)) hamp, hsil,
    newVoice_of_fitsByte _ _ (fitsByte_toNat v.noteId), hstored, List.set_set]
  rfl

/-! ### Notes dropped and notes rejected (R103, R107) -/

/-- After the retrigger no slot is free exactly where every slot sounds another note. -/
theorem all_active_silenceNote_iff (noteId : Int) (vs : List Voice) :
    (∀ w ∈ silenceNote noteId vs, w.active = true) ↔ ∀ w ∈ vs, w.active = true ∧ ¬ Sounds w noteId := by
  constructor
  · intro h w hw
    refine ⟨all_active_of_silenceNote h w hw, ?_⟩
    rcases silenceNote_cases noteId vs with ⟨-, hsilent⟩ | ⟨r, v, hr, -, heq, -⟩
    · exact hsilent w hw
    · obtain ⟨hlt, -⟩ := List.getElem?_eq_some_iff.mp hr
      have hfreed := h v.deactivate (heq ▸ List.mem_set hlt _)
      cases hfreed
  · intro h
    rw [silenceNote_none fun w hw => (h w hw).2]
    exact fun w hw => (h w hw).1

/-- Settles O18: nothing is silenced, and no slot is free. -/
theorem exhaustedPoolDropsTheNote : Obligations.ExhaustedPoolDropsTheNote := by
  intro s noteId velocity h
  have hfull : findFree (silenceNote noteId s.voices) = none :=
    findFree_none ((all_active_silenceNote_iff noteId s.voices).mpr h)
  rw [exec, execNoteOn, noteOn_exhausted velocity hfull, noteOff_of_silent fun w hw => (h w hw).2]
  rfl

theorem clampVelocity_of_nonpos {velocity : Int} (h : velocity ≤ 0) : clampVelocity velocity = 0 := by
  rw [clampVelocity, clamp_eq (by decide)]
  omega

/-- In every build the velocity 0 has the amplitude 0 (R104). -/
theorem ampOf_zero (cfg : Config) : ampOf cfg 0 = 0 := by
  have href : referenceAmp cfg.aMax 0 = 0 := (referenceAmp_eq_zero_iff _ _).mpr (by omega)
  rcases ampOf_cases cfg with heq | ⟨-, heq⟩ <;> rw [heq]
  · exact href
  · rw [otherAmp, if_pos href]

/-- Settles O19: the retrigger leaves a slot free, so the note comes to the test of its values, and fails it. -/
theorem zeroAmplitudeIsRejected : Obligations.ZeroAmplitudeIsRejected := by
  intro s noteId velocity ⟨w, hw, hroom⟩ hbad
  have hzero : (freqOf s.cfg noteId).isNonPositive = true ∨ ampOf s.cfg (clampVelocity velocity) = 0 := by
    rcases hbad with hfreq | hamp | hvel
    · exact .inl hfreq
    · exact .inr hamp
    · exact .inr (by rw [clampVelocity_of_nonpos hvel, ampOf_zero])
  refine ⟨noteOff noteId s, rfl, ?_⟩
  rw [exec, execNoteOn]
  rcases noteOn_cases noteId velocity s with ⟨-, hfull⟩ | ⟨j, u, -, -, -, ⟨-, heq⟩ | ⟨hfreq, hamp, -⟩⟩
  · obtain ⟨hactive, hother⟩ := (all_active_silenceNote_iff noteId s.voices).mp hfull w hw
    rcases hroom with hfree | hsounds
    · rw [hactive] at hfree
      cases hfree
    · exact absurd hsounds hother
  · rw [heq]
    rfl
  · simp [hfreq, hamp] at hzero

/-! ### No voice is stolen (R103) -/

/-- A slot that does not sound the note is not silenced. -/
theorem silenceNote_getElem?_of_not_sounds {noteId : Int} {vs : List Voice} {i : Nat} {v : Voice}
    (hi : vs[i]? = some v) (hv : ¬ Sounds v noteId) : (silenceNote noteId vs)[i]? = some v := by
  rcases silenceNote_cases noteId vs with ⟨heq, -⟩ | ⟨r, u, hr, hu, heq, -⟩ <;> rw [heq]
  · exact hi
  · have hne : r ≠ i := by
      rintro rfl
      obtain rfl : v = u := Option.some.inj (hi.symm.trans hr)
      exact hv hu
    rw [List.getElem?_set_ne hne, hi]

/-- A voice put in a free slot leaves every active one in its own. -/
theorem set_free_getElem?_of_active {vs : List Voice} {i j : Nat} {v w : Voice} (hj : vs[j]? = some w)
    (hw : w.active = false) (hi : vs[i]? = some v) (hv : v.active = true) (u : Voice) : (vs.set j u)[i]? = some v := by
  have hne : j ≠ i := by
    rintro rfl
    obtain rfl : v = w := Option.some.inj (hi.symm.trans hj)
    rw [hv] at hw
    cases hw
  rw [List.getElem?_set_ne hne, hi]

theorem not_sounds_of_inactive {v : Voice} (h : v.active = false) (noteId : Int) : ¬ Sounds v noteId := by
  simp [Sounds, h]

/-- After the retrigger NOTE_ON reports a diagnostic, or puts a voice in a free slot. -/
theorem noteOn_reports_or_sets (noteId velocity : Int) (s : State) :
    (∃ d, (d = .voicePoolExhausted ∨ d = .invalidNoteParameters) ∧
      noteOn noteId velocity s = report d (noteOff noteId s)) ∨
    ∃ j w v, (silenceNote noteId s.voices)[j]? = some w ∧ w.active = false ∧
      noteOn noteId velocity s = setVoices ((silenceNote noteId s.voices).set j v) s := by
  rcases noteOn_cases noteId velocity s with ⟨heq, -⟩ | ⟨j, w, hj, hw, -, ⟨-, heq⟩ | ⟨-, -, heq⟩⟩
  · exact .inl ⟨_, .inl rfl, heq⟩
  · exact .inl ⟨_, .inr rfl, heq⟩
  · exact .inr ⟨j, w, _, hj, hw, heq⟩

/-- Settles O20: a dropped or rejected note leaves the table as the retrigger did; an accepted one takes a free slot. -/
theorem noteOnStealsNoVoice : Obligations.NoteOnStealsNoVoice := by
  intro s noteId velocity
  rcases noteOn_reports_or_sets noteId velocity s with ⟨d, hd, heq⟩ | ⟨j, w, u, hj, hw, heq⟩
  · exact ⟨report d (noteOff noteId s), [d], congrArg _ heq, rfl, .inr (by simpa using hd), by simp,
      fun i v hi _ hother => silenceNote_getElem?_of_not_sounds hi hother,
      fun _ i v hi hv => silenceNote_getElem?_of_not_sounds hi (not_sounds_of_inactive hv noteId)⟩
  · refine ⟨setVoices ((silenceNote noteId s.voices).set j u) s, [], congrArg _ heq, by simp [setVoices], .inl rfl,
      by simp, fun i v hi hv hother => ?_, fun h => absurd rfl h⟩
    exact set_free_getElem?_of_active hj hw (silenceNote_getElem?_of_not_sounds hi hother) hv u

end Sys2Proof.Machine
end

section
/-! SUPPORT. The reference `ampOf` as the rounded quotient (40_voice_commands.md R104), and the integer search of
`halfPeriodOf` against the quotient of real numbers (R105, R106). -/

namespace Sys2Proof.Machine

/-! ### The amplitude (R104) -/

theorem referenceAmp_eq (aMax vel : Nat) : referenceAmp aMax vel = (2 * vel * aMax + 127) / 254 := by
  rw [referenceAmp, roundDiv, mul_assoc]

/-- No tie: 127 is odd, so the quotient never lies halfway between two integers (R104). -/
theorem referenceAmp_nearest (aMax vel : Nat) : |(referenceAmp aMax vel : ℚ) - (vel : ℚ) * aMax / 127| < 1 / 2 := by
  have hdef := referenceAmp_eq aMax vel
  rw [mul_assoc] at hdef
  have hlow : 254 * referenceAmp aMax vel < 2 * (vel * aMax) + 127 := by omega
  have hhigh : 2 * (vel * aMax) < 254 * referenceAmp aMax vel + 127 := by omega
  have hlow' : 254 * (referenceAmp aMax vel : ℚ) < 2 * (vel * aMax) + 127 := by exact_mod_cast hlow
  have hhigh' : 2 * ((vel : ℚ) * aMax) < 254 * referenceAmp aMax vel + 127 := by exact_mod_cast hhigh
  rw [abs_lt]
  constructor <;> linarith

/-- Settles O22: each property is one of the reference function's. -/
theorem amplitudeMapping : Obligations.AmplitudeMapping := by
  intro cfg href
  rw [ampOf_reference_build href]
  refine ⟨fun velocity => ?_, referenceAmp_nearest _, referenceAmp_eq _, referenceAmp_max _,
    (referenceAmp_eq_zero_iff _ _).mpr (by omega), fun u v h => referenceAmp_mono _ h, referenceAmp_eq_zero_iff _,
    fun vel h => (referenceAmp_mono _ h).trans_eq (referenceAmp_max _), fun ha vel h => ?_⟩
  · rw [clampVelocity, clamp_eq (by decide), min_comm]
    omega
  · rw [referenceAmp_eq, ha]
    split <;> omega

/-! ### The half-period (R105, R106) -/

/-- `SAMPLE_RATE / (2 f)` for `f = 440 × 2^((noteId − 69) / 12)`, a real number (R105, R106). -/
noncomputable def halfPeriodQuotient (sampleRate : Nat) (noteId : Int) : ℝ :=
  sampleRate / (2 * (440 * (2 : ℝ) ^ (((noteId : ℝ) - 69) / 12)))

/-- A higher note has a smaller quotient. -/
theorem halfPeriodQuotient_anti (sampleRate : Nat) : Antitone (halfPeriodQuotient sampleRate) := by
  intro m n h
  unfold halfPeriodQuotient
  gcongr
  norm_num

/-- The integer test compares with the rounded quotient. -/
theorem halfPeriodAtLeast_iff_le_floor (sampleRate : Nat) (noteId : Int) {k : Nat} (hk : 1 ≤ k) :
    halfPeriodAtLeast sampleRate noteId k = true ↔ (k : ℤ) ≤ ⌊halfPeriodQuotient sampleRate noteId + 1 / 2⌋ := by
  rw [halfPeriodAtLeast_iff sampleRate noteId hk, Int.le_floor]
  rfl

/-- A half-period that a note reaches every lower note reaches too. -/
theorem halfPeriodAtLeast_of_lower {sampleRate : Nat} {m n : Int} (h : m ≤ n) {k : Nat} (hk : 1 ≤ k)
    (hn : halfPeriodAtLeast sampleRate n k = true) : halfPeriodAtLeast sampleRate m k = true := by
  rw [halfPeriodAtLeast_iff_le_floor _ _ hk] at hn ⊢
  refine hn.trans (Int.floor_le_floor ?_)
  gcongr
  exact halfPeriodQuotient_anti sampleRate h

/-- Where the quotient fits the register, the search ends at the rounded quotient, floored at 1. -/
theorem exactHalfPeriod_eq_floor {sampleRate : Nat} {noteId : Int}
    (h : halfPeriodAtLeast sampleRate noteId 65536 = false) :
    (exactHalfPeriod sampleRate noteId : ℤ) = max 1 ⌊halfPeriodQuotient sampleRate noteId + 1 / 2⌋ := by
  have hzero : halfPeriodAtLeast sampleRate noteId 0 = true := by simp [halfPeriodAtLeast]
  obtain ⟨hreached, hbeyond, -, -⟩ := greatestBelow_spec 16 hzero h
  rw [exactHalfPeriod]
  set g := greatestBelow (halfPeriodAtLeast sampleRate noteId) 16 0
  have hupper : ⌊halfPeriodQuotient sampleRate noteId + 1 / 2⌋ < (g + 1 : ℕ) := by
    rw [← not_le, ← halfPeriodAtLeast_iff_le_floor _ _ (by omega), hbeyond]
    exact Bool.false_ne_true
  rcases Nat.eq_zero_or_pos g with h0 | hpos
  · omega
  · have hlower := (halfPeriodAtLeast_iff_le_floor _ _ hpos).mp hreached
    omega

/-- In a configuration of R6 the quotient of every note from 0 up fits the register. -/
theorem halfPeriodAtLeast_of_inRange {cfg : Config} (hc : configInRange cfg = true) {noteId : Int} (h : 0 ≤ noteId) :
    halfPeriodAtLeast cfg.sampleRate noteId 65536 = false := by
  have hlowest : halfPeriodAtLeast cfg.sampleRate 0 65536 ≠ true := by
    simp only [configInRange, Bool.and_eq_true, Bool.not_eq_true'] at hc
    simp [hc]
  rw [← Bool.not_eq_true]
  exact fun hn => hlowest (halfPeriodAtLeast_of_lower h (by omega) hn)

theorem halfPeriodOf_eq_floor {cfg : Config} (hc : configInRange cfg = true) (href : cfg.numerics = .reference)
    {noteId : Int} (h : 0 ≤ noteId) :
    ((halfPeriodOf cfg noteId).toNat : ℤ) = max 1 ⌊halfPeriodQuotient cfg.sampleRate noteId + 1 / 2⌋ := by
  have hfits := halfPeriodAtLeast_of_inRange hc h
  have hle := exactHalfPeriod_le hfits
  have hval : (halfPeriodOf cfg noteId).toNat = exactHalfPeriod cfg.sampleRate noteId := by
    simp only [halfPeriodOf, href, referenceHalfPeriod, hfits, Bool.false_eq_true, if_false, BitVec.toNat_ofNat]
    exact Nat.mod_eq_of_lt (by omega)
  rw [hval, exactHalfPeriod_eq_floor hfits]

/-- Settles O23: the quotient fits the register, and the search ends at the number it rounds to. -/
theorem halfPeriodIsTheRoundedRealQuotient : Obligations.HalfPeriodIsTheRoundedRealQuotient := by
  intro cfg noteId hc href
  rw [halfPeriodOf_eq_floor hc href (Int.natCast_nonneg noteId), halfPeriodQuotient, Int.cast_natCast]

/-- The reference rate's half-periods, in every build, by the reference configuration's quotient. -/
theorem halfPeriodOf_reference_rate_eq_floor {cfg : Config} (h : cfg.sampleRate = 44100) (noteId : Nat) :
    ((halfPeriodOf cfg noteId).toNat : ℤ) = max 1 ⌊halfPeriodQuotient 44100 noteId + 1 / 2⌋ := by
  rw [halfPeriodOf_reference_rate h]
  exact halfPeriodOf_eq_floor (by decide) rfl (Int.natCast_nonneg noteId)

/-- Settles O24: at 44100 samples a second note 130 does not reach 2, and the quotient falls as the note rises. -/
theorem highNotesHaveHalfPeriodOne : Obligations.HighNotesHaveHalfPeriodOne := by
  intro cfg hrate
  refine ⟨fun noteId h => ?_, fun m n h => ?_⟩
  · have h130 : halfPeriodAtLeast 44100 130 2 = false := by decide
    have hshort : ¬ (2 : ℕ) ≤ ⌊halfPeriodQuotient 44100 noteId + 1 / 2⌋ := by
      rw [← halfPeriodAtLeast_iff_le_floor _ _ (by omega)]
      exact fun hreached => Bool.false_ne_true
        (h130.symm.trans (halfPeriodAtLeast_of_lower (by omega) (by omega) hreached))
    have hval := halfPeriodOf_reference_rate_eq_floor hrate noteId
    have hone : (halfPeriodOf cfg noteId).toNat = 1 := by omega
    exact BitVec.eq_of_toNat_eq hone
  · have hle : (((halfPeriodOf cfg n).toNat : ℕ) : ℤ) ≤ (halfPeriodOf cfg m).toNat := by
      rw [halfPeriodOf_reference_rate_eq_floor hrate, halfPeriodOf_reference_rate_eq_floor hrate]
      refine max_le_max_left 1 (Int.floor_le_floor ?_)
      gcongr
      exact halfPeriodQuotient_anti 44100 (by exact_mod_cast h)
    exact_mod_cast hle

end Sys2Proof.Machine
end

section
/-! SUPPORT. RENDER and the frames it leads to (41_render_mixer.md): the mixed sample as the clamped average of the active
voices' levels (R122, R123, R126), and what m RENDER and EMIT steps make of the table and of the frames (R124, R127). -/

namespace Sys2Proof.Machine

/-! ### RENDER and EMIT (R120, R143) -/

theorem exec_render {s : State} (h : s.pcmValid = false) : exec .render s = .next (render s) := by
  simp [exec, execRender, h]

theorem exec_emit {s : State} (h : s.pcmValid = true) : exec .emit s = .next (outputFrame s) := by
  simp [exec, execEmit, h]

@[simp] theorem render_voices (s : State) : (render s).voices = s.voices.map oscillate := rfl

/-! ### The oscillator step (R121) -/

theorem oscillate_flip {v : Voice} (hv : v.active = true) (h : v.samplesUntilFlip = 0) : oscillate v =
    { v with
      currentLevel := if v.currentLevel = v.targetAmplitude then -v.targetAmplitude else v.targetAmplitude
      samplesUntilFlip := v.halfPeriodSamples } :=
  ((oscillate_cases hv).resolve_right fun hrun => hrun.1 h).2

theorem oscillate_countDown {v : Voice} (hv : v.active = true) (h : v.samplesUntilFlip ≠ 0) :
    oscillate v = { v with samplesUntilFlip := v.samplesUntilFlip - 1 } :=
  ((oscillate_cases hv).resolve_left fun hzero => h hzero.1).2

/-- Settles O25: slot by slot RENDER is the oscillator step, and a countdown that goes on was not at 0. -/
theorem renderStepsEveryOscillator : Obligations.RenderStepsEveryOscillator := by
  intro s hempty
  refine ⟨render s, exec_render hempty, rfl, by simp, fun i v hi => ?_⟩
  have hslot : (render s).voices[i]? = some (oscillate v) := by simp [hi]
  rw [hslot]
  refine ⟨fun hv => ?_, fun hv hzero => ?_, fun hv hrun => ⟨?_, by bv_omega⟩⟩
  · rw [oscillate_inactive hv]
  · rw [oscillate_flip hv hzero]
  · rw [oscillate_countDown hv hrun]

/-! ### The mixed sample (R122, R123, R125, R126) -/

/-- The levels that are mixed, as signed numbers. -/
def activeLevels (vs : List Voice) : List Int := (vs.filter Voice.active).map fun v => v.currentLevel.toInt

theorem activeLevels_sum (vs : List Voice) : (activeLevels vs).sum = mixSum vs := (mixSum_eq vs).symm

theorem activeLevels_length (vs : List Voice) : (activeLevels vs).length = activeCount vs := by
  rw [activeLevels, List.length_map, activeCount_eq]

/-- The sample as a signed number: the clamp leaves one that fits the register. -/
theorem mix_toInt (vs : List Voice) : (mix vs).toInt =
    if activeLevels vs = [] then 0
    else max (-32768) (min 32767 (Int.tdiv (activeLevels vs).sum (activeLevels vs).length)) := by
  have hnone : activeCount vs = 0 ↔ activeLevels vs = [] := by
    rw [← activeLevels_length, List.length_eq_zero_iff]
  simp only [mix, hnone]
  split
  · rfl
  · rw [clamp_eq (by decide), sdivTrunc_eq_tdiv, BitVec.toInt_ofInt, Int.bmod_eq_of_le (by omega) (by omega),
      activeLevels_sum, activeLevels_length]

/-- Settles O26: RENDER mixes the levels of the table it leaves. -/
theorem renderMixesTheClampedAverage : Obligations.RenderMixesTheClampedAverage := by
  intro s hempty
  exact ⟨render s, exec_render hempty, mix_toInt (s.voices.map oscillate)⟩

/-- Sound slots have an average within `A_MAX`, which no clamp to 16 bits changes (R126). -/
theorem mix_toInt_of_voiceInv {cfg : Config} (ha : cfg.aMax ≤ 32767) {vs : List Voice} (h : ∀ v ∈ vs, VoiceInv cfg v) :
    (mix vs).toInt = Int.tdiv (activeLevels vs).sum (activeLevels vs).length := by
  have hbound := sdivTrunc_mixSum_bound h
  rw [sdivTrunc_eq_tdiv, ← activeLevels_sum, ← activeLevels_length] at hbound
  rw [mix_toInt]
  split
  · next hnone => simp [hnone]
  · omega

/-- Settles O27: the oscillators keep the slots sound. -/
theorem clampNeverActs : Obligations.ClampNeverActs := by
  rintro s ⟨hcfg, htable, -⟩ hempty
  obtain ⟨-, hslots, -⟩ := tableInv_render htable
  obtain ⟨hlow, hhigh⟩ := pcmInv_render hcfg htable rfl
  exact ⟨render s, exec_render hempty, mix_toInt_of_voiceInv (aMax_of_inRange hcfg).2 hslots, hlow, hhigh⟩

/-- The sum and the count take the slots in any order (R125). -/
theorem mix_eq_of_perm {vs ws : List Voice} (h : vs.Perm ws) : mix vs = mix ws := by
  have hsum : mixSum vs = mixSum ws := (h.map Voice.contribution).sum_eq
  have hcount : activeCount vs = activeCount ws := h.countP_eq Voice.active
  rw [mix, mix, hsum, hcount]

/-- Settles O28: each slot steps by itself, and the mix takes the slots in any order. -/
theorem slotOrderDoesNotMatter : Obligations.SlotOrderDoesNotMatter := by
  intro s vs hempty hperm
  have hstepped := hperm.map oscillate
  exact ⟨render s, render { s with voices := vs }, exec_render hempty, exec_render hempty,
    (mix_eq_of_perm hstepped).symm, hstepped⟩

/-! ### RENDER and EMIT in turn (R141) -/

/-- One sample on both channels (R63, R143). -/
def monoFrame (x : Word) : Frame := { left := x, right := x }

theorem step_producer_render {s : State} {ready : Bool} {rest : List Input} (h : NextInput s (.producer ready) rest)
    (hempty : s.pcmValid = false) : step s = .next (render (takeInput rest s)) := by
  have hselect : decode ((Input.producer ready).encoded s.pcmValid) = .ok .render := by
    simp [Input.encoded, decode, hempty]
  exact (stepRunsTheDecodedInstruction s _ rest _ h hselect).2.trans (exec_render hempty)

theorem step_producer_emit {s : State} {rest : List Input} (h : NextInput s (.producer true) rest)
    (hfull : s.pcmValid = true) : step s = .next (outputFrame (takeInput rest s)) := by
  have hselect : decode ((Input.producer true).encoded s.pcmValid) = .ok .emit := by
    simp [Input.encoded, decode, hfull]
  exact (stepRunsTheDecodedInstruction s _ rest _ h hselect).2.trans (exec_emit hfull)

/-- A running machine with an empty PCM register and n inputs queued, all of them producer steps with a ready
transport. -/
structure ProducerQueued (n : Nat) (s : State) : Prop where
  running : Running s
  rstLine : s.rstLine = []
  inputs : s.inputs = List.replicate n (.producer true)
  empty : s.pcmValid = false

/-- The state after the next two producer steps, RENDER and EMIT. -/
def afterFrame (n : Nat) (s : State) : State :=
  outputFrame (takeInput (List.replicate n (.producer true))
    (render (takeInput (List.replicate (n + 1) (.producer true)) s)))

@[simp] theorem afterFrame_voices (n : Nat) (s : State) : (afterFrame n s).voices = s.voices.map oscillate := rfl
@[simp] theorem afterFrame_frames (n : Nat) (s : State) :
    (afterFrame n s).frames = s.frames ++ [monoFrame (mix (s.voices.map oscillate))] := rfl

namespace ProducerQueued

variable {n : Nat} {s : State}

theorem next_frame (h : ProducerQueued (n + 2) s) : ProducerQueued n (afterFrame n s) where
  running := h.running
  rstLine := by simp [afterFrame, render, takeInput, h.rstLine]
  inputs := rfl
  empty := rfl

/-- Two producer steps: RENDER fills the register, EMIT takes the frame out. -/
theorem runFor_two (h : ProducerQueued (n + 2) s) (k : Nat) :
    runFor (k + 2) s = runFor k (afterFrame n s) := by
  have hfirst : NextInput s (.producer true) (List.replicate (n + 1) (.producer true)) :=
    ⟨h.running, by simp [rstLevel, h.rstLine], h.inputs⟩
  have hsecond : NextInput (render (takeInput (List.replicate (n + 1) (.producer true)) s)) (.producer true)
      (List.replicate n (.producer true)) :=
    ⟨h.running, by simp [rstLevel, render, takeInput, h.rstLine], rfl⟩
  rw [runFor_succ (step_producer_render hfirst h.empty), runFor_succ (step_producer_emit hsecond rfl), afterFrame]

end ProducerQueued

/-- m RENDER and EMIT steps: every slot takes m oscillator steps, and frame i is the mix after i + 1 of them. -/
theorem runFor_frames (m : Nat) {s : State} (h : ProducerQueued (2 * m) s) :
    ∃ t, runFor (2 * m) s = .next t ∧ t.voices = s.voices.map oscillate^[m] ∧
      t.frames = s.frames ++ (List.range m).map fun i => monoFrame (mix (s.voices.map oscillate^[i + 1])) := by
  induction m generalizing s with
  | zero => exact ⟨s, rfl, by simp, by simp⟩
  | succ m ih =>
    obtain ⟨t, hrun, hvoices, hframes⟩ := ih h.next_frame
    refine ⟨t, (h.runFor_two (2 * m)).trans hrun, ?_, ?_⟩
    · rw [hvoices, afterFrame_voices, List.map_map, Function.iterate_succ]
    · rw [hframes, afterFrame_frames, List.range_succ_eq_map]
      simp [List.map_map, Function.comp_def, Function.iterate_succ]

/-! ### The empty pool (R127) -/

theorem mix_of_no_active {vs : List Voice} (h : ∀ v ∈ vs, v.active = false) : mix vs = 0 := by
  have hcount : activeCount vs = 0 := List.countP_eq_zero.mpr (by simpa using h)
  rw [mix, if_pos hcount]

theorem map_iterate_oscillate_of_no_active {vs : List Voice} (h : ∀ v ∈ vs, v.active = false) (n : Nat) :
    vs.map oscillate^[n] = vs :=
  (List.map_congr_left fun v hv => Function.iterate_fixed (oscillate_inactive (h v hv)) n).trans (List.map_id' vs)

/-- Settles O30: no slot changes, so every mix is that of the table as it was. -/
theorem emptyPoolEmitsSilence : Obligations.EmptyPoolEmitsSilence := by
  intro s m hrun hrst hin hempty hsilent
  obtain ⟨t, ht, hvoices, hframes⟩ := runFor_frames m ⟨hrun, hrst, hin, hempty⟩
  simp only [map_iterate_oscillate_of_no_active hsilent, mix_of_no_active hsilent] at hvoices hframes
  exact ⟨t, ht, hvoices, by simpa [monoFrame] using hframes⟩

/-! ### The waveform of one voice (R124) -/

/-- One sample later the position within the half-cycle is the next one, or the next half-cycle begins. -/
theorem halfCycle_succ (k n : Nat) :
    (n % (k + 1) < k ∧ (n + 1) % (k + 1) = n % (k + 1) + 1 ∧ (n + 1) / (k + 1) = n / (k + 1)) ∨
    (n % (k + 1) = k ∧ (n + 1) % (k + 1) = 0 ∧ (n + 1) / (k + 1) = n / (k + 1) + 1) := by
  have hbefore := Nat.div_add_mod n (k + 1)
  have hafter := Nat.div_add_mod (n + 1) (k + 1)
  have hlt : n % (k + 1) < k + 1 := Nat.mod_lt n k.succ_pos
  have hlt' : (n + 1) % (k + 1) < k + 1 := Nat.mod_lt (n + 1) k.succ_pos
  by_cases hend : k + 1 ∣ n + 1
  · have hdiv := Nat.succ_div_of_dvd hend
    rw [hdiv, Nat.mul_add] at hafter
    exact .inr ⟨by omega, by omega, hdiv⟩
  · have hdiv := Nat.succ_div_of_not_dvd hend
    rw [hdiv] at hafter
    exact .inl ⟨by omega, by omega, hdiv⟩

/-- The level n samples after the activation: `+A` in the half-cycles of even number, `-A` in the others. -/
def waveLevel (v : Voice) (n : Nat) : Word :=
  if n / (v.halfPeriodSamples.toNat + 1) % 2 = 0 then v.targetAmplitude else -v.targetAmplitude

/-- The slot n samples after the activation. -/
def waveAt (v : Voice) (n : Nat) : Voice :=
  { v with
    currentLevel := waveLevel v n
    samplesUntilFlip :=
      BitVec.ofNat 16 (v.halfPeriodSamples.toNat - n % (v.halfPeriodSamples.toNat + 1)) }

theorem waveAt_zero {v : Voice} (hlevel : v.currentLevel = v.targetAmplitude)
    (hcount : v.samplesUntilFlip = v.halfPeriodSamples) : waveAt v 0 = v := by
  have hl : waveLevel v 0 = v.currentLevel := by simp [waveLevel, hlevel]
  have hc : BitVec.ofNat 16 (v.halfPeriodSamples.toNat - 0 % (v.halfPeriodSamples.toNat + 1)) =
      v.samplesUntilFlip := by simp [hcount]
  rw [waveAt, hl, hc]

/-- A positive level is not its own negative, so a flip can tell the two halves of the wave apart (R121). -/
theorem ne_neg_of_pos {a : Word} (h : 1 ≤ a.toInt) : a ≠ -a := by
  intro heq
  have hmin : a ≠ BitVec.intMin 16 := by rintro rfl; exact absurd h (by decide)
  have htoInt := congrArg BitVec.toInt heq
  rw [BitVec.toInt_neg_of_ne_intMin hmin] at htoInt
  omega

/-- The next half-cycle has the other sign. -/
theorem waveLevel_flip {v : Voice} {n : Nat} (hpos : 1 ≤ v.targetAmplitude.toInt)
    (h : (n + 1) / (v.halfPeriodSamples.toNat + 1) = n / (v.halfPeriodSamples.toNat + 1) + 1) :
    waveLevel v (n + 1) =
      if waveLevel v n = v.targetAmplitude then -v.targetAmplitude else v.targetAmplitude := by
  unfold waveLevel
  rw [h]
  rcases Nat.mod_two_eq_zero_or_one (n / (v.halfPeriodSamples.toNat + 1)) with heven | hodd
  · simp [heven, Nat.add_mod]
  · simp [hodd, Nat.add_mod, (ne_neg_of_pos hpos).symm]

/-- The countdown n samples after the activation, as a number: it fits its register. -/
theorem waveAt_samplesUntilFlip_toNat (v : Voice) (n : Nat) : (waveAt v n).samplesUntilFlip.toNat =
    v.halfPeriodSamples.toNat - n % (v.halfPeriodSamples.toNat + 1) := by
  simp only [waveAt, BitVec.toNat_ofNat]
  exact Nat.mod_eq_of_lt (by omega)

/-- The oscillator step is one sample of the waveform. -/
theorem oscillate_waveAt {v : Voice} (hv : v.active = true) (hpos : 1 ≤ v.targetAmplitude.toInt) (n : Nat) :
    oscillate (waveAt v n) = waveAt v (n + 1) := by
  have hcount := waveAt_samplesUntilFlip_toNat v n
  have hcount' := waveAt_samplesUntilFlip_toNat v (n + 1)
  rcases halfCycle_succ v.halfPeriodSamples.toNat n with ⟨hin, hmod, hdiv⟩ | ⟨hend, hmod, hdiv⟩
  · have hrun : (waveAt v n).samplesUntilFlip ≠ 0 := by bv_omega
    have hdown : (waveAt v n).samplesUntilFlip - 1 = (waveAt v (n + 1)).samplesUntilFlip := by bv_omega
    have hlevel : waveLevel v n = waveLevel v (n + 1) := by rw [waveLevel, ← hdiv, waveLevel]
    calc oscillate (waveAt v n)
        = { v with currentLevel := waveLevel v n, samplesUntilFlip := (waveAt v n).samplesUntilFlip - 1 } :=
          oscillate_countDown hv hrun
      _ = waveAt v (n + 1) := by rw [hdown, hlevel, waveAt]
  · have hzero : (waveAt v n).samplesUntilFlip = 0 := by bv_omega
    have hreload : v.halfPeriodSamples = (waveAt v (n + 1)).samplesUntilFlip := by bv_omega
    calc oscillate (waveAt v n)
        = { v with
            currentLevel := if waveLevel v n = v.targetAmplitude then -v.targetAmplitude else v.targetAmplitude
            samplesUntilFlip := v.halfPeriodSamples } := oscillate_flip hv hzero
      _ = { v with currentLevel := waveLevel v (n + 1), samplesUntilFlip := (waveAt v (n + 1)).samplesUntilFlip } := by
          rw [← waveLevel_flip hpos hdiv, ← hreload]
      _ = waveAt v (n + 1) := rfl

theorem iterate_oscillate {v : Voice} (hv : v.active = true) (hlevel : v.currentLevel = v.targetAmplitude)
    (hpos : 1 ≤ v.targetAmplitude.toInt) (hcount : v.samplesUntilFlip = v.halfPeriodSamples) (n : Nat) :
    oscillate^[n] v = waveAt v n := by
  induction n with
  | zero => exact (waveAt_zero hlevel hcount).symm
  | succ n ih => rw [Function.iterate_succ_apply', ih, oscillate_waveAt hv hpos]

/-- A voice alone in its table is the only active one. -/
theorem filter_active_alone {vs : List Voice} {j : Nat} {v : Voice} (hj : vs[j]? = some v) (hv : v.active = true)
    (halone : ∀ (i : Nat) (w : Voice), i ≠ j → vs[i]? = some w → w.active = false) :
    vs.filter Voice.active = [v] := by
  induction vs generalizing j with
  | nil => simp at hj
  | cons u us ih =>
    cases j with
    | zero =>
      obtain rfl : u = v := by simpa using hj
      have hrest : us.filter Voice.active = [] := by
        rw [List.filter_eq_nil_iff]
        intro w hw
        obtain ⟨i, hi⟩ := List.mem_iff_getElem?.mp hw
        simp [halone (i + 1) w (by omega) (by simpa using hi)]
      simp [hv, hrest]
    | succ j =>
      have hu : u.active = false := halone 0 u (by omega) rfl
      rw [List.filter_cons_of_neg (by simp [hu])]
      exact ih (by simpa using hj) fun i w hi hw => halone (i + 1) w (by omega) (by simpa using hw)

theorem filter_active_map_iterate_oscillate (vs : List Voice) (n : Nat) :
    (vs.map oscillate^[n]).filter Voice.active = (vs.filter Voice.active).map oscillate^[n] := by
  induction n with
  | zero => simp
  | succ n ih =>
    rw [Function.iterate_succ', ← List.map_map, filter_active_map_oscillate, ih, List.map_map]

/-- The average of one level is that level. -/
theorem mix_alone {vs : List Voice} {v : Voice} (h : vs.filter Voice.active = [v]) : mix vs = v.currentLevel := by
  apply BitVec.eq_of_toInt_eq
  have hlow := v.currentLevel.le_toInt
  have hhigh := v.currentLevel.toInt_lt
  have hlevels : activeLevels vs = [v.currentLevel.toInt] := by simp [activeLevels, h]
  rw [mix_toInt, hlevels, if_neg (List.cons_ne_nil _ _), List.sum_singleton, List.length_singleton, Nat.cast_one,
    Int.tdiv_one]
  omega

/-- Settles O29: the voice's slot runs through the waveform, and alone it is the mix. -/
theorem waveformOfOneVoice : Obligations.WaveformOfOneVoice := by
  intro s j m v hrun hrst hin hempty hj hv hlevel hpos hcount k level
  obtain ⟨t, ht, hvoices, hframes⟩ := runFor_frames m ⟨hrun, hrst, hin, hempty⟩
  have hwave : ∀ n, oscillate^[n] v = waveAt v n := iterate_oscillate hv hlevel hpos hcount
  refine ⟨t, ht, ?_, fun halone => ?_⟩
  · rw [hvoices, List.getElem?_map, hj, Option.map_some, hwave]
    rfl
  · have hmix : ∀ n, mix (s.voices.map oscillate^[n]) = level n := by
      intro n
      refine mix_alone (v := waveAt v n) ?_
      rw [filter_active_map_iterate_oscillate, filter_active_alone hj hv halone, List.map_singleton, hwave]
    simp only [hframes, hmix, monoFrame]

end Sys2Proof.Machine
end

section
/-! SUPPORT. The PCM writer (42_pcm_writer.md): which producer step runs (R141, R148), EMIT and HOLD (R143, R144), and what
a step can do to a pending frame (R142, R234, R236). -/

namespace Sys2Proof.Machine

/-! ### EMIT and HOLD (R143, R144) -/

theorem exec_hold {s : State} (h : s.pcmValid = true) : exec .hold s = .next s := by
  simp [exec, execHold, h]

/-- Settles O31: a full register is EMIT's precondition. -/
theorem emitOutputsTheSampleTwice : Obligations.EmitOutputsTheSampleTwice := fun _ => exec_emit

/-- Settles O32: a full register is HOLD's precondition. -/
theorem holdIsTheIdentity : Obligations.HoldIsTheIdentity := fun _ => exec_hold

/-! ### The producer's selection (R68, R141, R148) -/

theorem handshakeOf_empty (ready : Bool) : handshakeOf (handshakePattern false ready) = .render := by
  rw [handshakeOf_pattern]
  rfl

theorem handshakeOf_full (ready : Bool) :
    handshakeOf (handshakePattern true ready) = .emit ∨ handshakeOf (handshakePattern true ready) = .hold := by
  rw [handshakeOf_pattern]
  cases ready with
  | true => exact .inl rfl
  | false => exact .inr rfl

/-- A queued producer step runs what the handshake selects. -/
theorem step_producer {s : State} {ready : Bool} {rest : List Input} (h : NextInput s (.producer ready) rest) :
    step s = exec (handshakeOf (handshakePattern s.pcmValid ready)) (takeInput rest s) :=
  (stepRunsTheDecodedInstruction s _ rest _ h rfl).2

theorem step_free_empty {s : State} (hrun : Running s) (hrst : rstLevel s = false) (hin : s.inputs = [])
    (hempty : s.pcmValid = false) : step s = exec .render { s with rstLine := s.rstLine.tail } := by
  have hselect : fetch s = (.handshake (handshakePattern false false), { s with rstLine := s.rstLine.tail }) := by
    rw [fetch_low hrst, hin]
    exact if_neg (by simp [hempty])
  rw [step_running hrun, hselect]
  rfl

theorem step_free_full {s : State} (hrun : Running s) (hrst : rstLevel s = false) (hin : s.inputs = [])
    (hfull : s.pcmValid = true) :
    step s = exec (handshakeOf (handshakePattern true (Config.freePcmReady s.readyCount)))
      { s with rstLine := s.rstLine.tail, readyCount := s.readyCount + 1 } := by
  have hselect : fetch s = (.handshake (handshakePattern true (Config.freePcmReady s.readyCount)),
      { s with rstLine := s.rstLine.tail, readyCount := s.readyCount + 1 }) := by
    rw [fetch_low hrst, hin]
    exact if_pos hfull
  rw [step_running hrun, hselect]
  rfl

/-- Settles O6: the handshake's selection in each of the three cases; the selected step has its precondition. -/
theorem producerStepSelection : Obligations.ProducerStepSelection := by
  intro s ready rest h s'
  have hstep : step s = exec (handshakeOf (handshakePattern s.pcmValid ready)) s' := step_producer h
  refine ⟨fun hempty => ?_, fun hfull hready => ?_, fun hfull hready => ?_, ?_⟩
  · rw [hstep, hempty, handshakeOf_empty]
  · rw [hstep, hfull, hready, handshakeOf_pattern]
    rfl
  · rw [hstep, hfull, hready, handshakeOf_pattern]
    rfl
  · rw [hstep]
    exact exec_handshakeOf_completes (s := s') rfl ready

/-- Settles O7: with the register full the handshake selects EMIT or HOLD, as the free `pcm_ready` has it. -/
theorem producerFreeRuns : Obligations.ProducerFreeRuns := by
  intro s hrun hrst hin
  refine ⟨fun hempty => ?_, fun hfull => ?_⟩
  · have hstep := step_free_empty hrun hrst hin hempty
    exact ⟨hstep, _, hstep.trans (exec_render hempty)⟩
  · have hstep := step_free_full hrun hrst hin hfull
    refine ⟨_, handshakeOf_full _, hstep, ?_⟩
    rw [hstep]
    refine exec_handshakeOf_completes ?_ _
    exact hfull

/-! ### The pending frame (R142, R143, R234, R236) -/

/-- No queued input, and no producer step, selects RESET (R69, R70). -/
theorem decode_encoded_ne_reset (inp : Input) (valid : Bool) : decode (inp.encoded valid) ≠ .ok .reset := by
  cases inp with
  | command w =>
    rcases commandOf_cases w with ⟨-, -, hc⟩ | ⟨-, -, hc⟩ | ⟨-, hc⟩ | ⟨-, -, hc⟩ <;>
      simp [Input.encoded, decode, hc, Except.map, Command.toInstr]
  | noteOnCall n v => simp [Input.encoded, decode]
  | noteOffCall n => simp [Input.encoded, decode]
  | producer ready =>
    cases valid with
    | false => simp [Input.encoded, decode]
    | true => rcases handshakeOf_full ready with h | h <;> simp [Input.encoded, decode, h]
  | hostCall op args =>
    rcases hostOp_cases op with rfl | rfl | rfl | rfl <;> simp [Input.encoded, decode, callOf]

/-- RESET runs only by `rst` (R69). -/
theorem rstLevel_of_reset_selected {s : State} (h : decode (fetch s).1 = .ok .reset) : rstLevel s = true := by
  rcases fetch_cases s with ⟨hrst, -⟩ | ⟨-, inp, -, hsel⟩ | ⟨-, ready, hsel⟩
  · exact hrst
  · rw [hsel] at h
    exact absurd h (decode_encoded_ne_reset inp _)
  · rw [hsel] at h
    exact absurd h (decode_encoded_ne_reset (.producer ready) _)

/-- The PCM register and the emitted frames are the same. -/
abbrev SamePcm (s t : State) : Prop := t.pcmSample = s.pcmSample ∧ t.pcmValid = s.pcmValid ∧ t.frames = s.frames

/-- What an instruction can do to the PCM register and the frames: RENDER fills an empty register, EMIT takes a full one's
frame out, RESET clears it, and no other instruction touches them (R17). -/
theorem exec_pcm_cases {i : Instr} {s t : State} (h : exec i s = .next t) :
    (s.pcmValid = false ∧ t = render s) ∨ (s.pcmValid = true ∧ t = outputFrame s) ∨
      (i = .reset ∧ t = resetBlock s) ∨ SamePcm s t := by
  by_cases hwrites : i = .render ∨ i = .emit ∨ i = .reset
  · have hx := exec_next h
    rcases hwrites with rfl | rfl | rfl
    · cases hx with | render hempty => exact .inl ⟨hempty, rfl⟩
    · cases hx with | emit hfull => exact .inr (.inl ⟨hfull, rfl⟩)
    · cases hx with | reset => exact .inr (.inr (.inl ⟨rfl, rfl⟩))
  · simp only [not_or] at hwrites
    obtain ⟨hrender, hemit, hreset⟩ := hwrites
    exact .inr (.inr (.inr ((whoWritesTheBlock i s t h).1 hrender hemit hreset)))

/-- The same for a step, in which only `rst` selects RESET. -/
theorem step_pcm_cases {s t : State} (h : step s = .next t) :
    (s.pcmValid = false ∧ t = render (fetch s).2) ∨ (s.pcmValid = true ∧ t = outputFrame (fetch s).2) ∨
      (rstLevel s = true ∧ t = resetBlock (fetch s).2) ∨ SamePcm s t := by
  rcases step_cases h with ⟨-, rfl⟩ | ⟨-, rfl⟩ | ⟨-, i, hdecode, hexec⟩
  · exact .inr (.inr (.inr ⟨rfl, rfl, rfl⟩))
  · exact .inr (.inr (.inr ⟨rfl, rfl, rfl⟩))
  · obtain ⟨hsample, hvalid, hframes⟩ : SamePcm s (fetch s).2 := by
      rw [fetch_state]
      exact ⟨rfl, rfl, rfl⟩
    rcases exec_pcm_cases hexec with ⟨hempty, ht⟩ | ⟨hfull, ht⟩ | ⟨rfl, ht⟩ | ⟨hs, hv, hf⟩
    · exact .inl ⟨hvalid ▸ hempty, ht⟩
    · exact .inr (.inl ⟨hvalid ▸ hfull, ht⟩)
    · exact .inr (.inr (.inl ⟨rstLevel_of_reset_selected hdecode, ht⟩))
    · exact .inr (.inr (.inr ⟨hs.trans hsample, hv.trans hvalid, hf.trans hframes⟩))

/-- Settles O33: a step that touches neither register nor frames keeps a pending frame, or finds none. -/
theorem pendingFrameGoesOutUnchanged : Obligations.PendingFrameGoesOutUnchanged := by
  intro s t h
  rcases step_pcm_cases h with ⟨hempty, rfl⟩ | ⟨hfull, rfl⟩ | ⟨hrst, rfl⟩ | ⟨hsample, hvalid, hframes⟩
  · refine .inr (.inr (.inr ⟨hempty, ?_⟩))
    rw [fetch_state]
    rfl
  · refine .inr (.inl ⟨hfull, rfl, ?_⟩)
    rw [fetch_state]
    exact ⟨rfl, rfl⟩
  · refine .inr (.inr (.inl ⟨hrst, rfl, rfl, ?_⟩))
    rw [fetch_state]
    rfl
  · cases hpending : s.pcmValid with
    | true => exact .inl ⟨rfl, hvalid.trans hpending, hsample, hframes⟩
    | false => exact .inr (.inr (.inr ⟨rfl, hframes⟩))

end Sys2Proof.Machine
end

section
/-! SUPPORT. The host's calls one by one (43_host_sequencer.md R161 to R174): what LOAD_SONG, START and STOP write, when
UPDATE dispatches, how the next due time is rounded, and that a finished song stays finished. -/

namespace Sys2Proof.Machine

/-! ### LOAD_SONG, START, STOP (R161 to R166) -/

/-- Settles O36: past its tests LOAD_SONG installs the song, with the tick length of the tempo its bits stand for. -/
theorem loadSongInstalls : Obligations.LoadSongInstalls := by
  intro s p c bits bpm hc hbpm
  simp only [exec, execLoadSong, if_neg hc, hbpm]
  rfl

/-- Settles O37: either test of the descriptor leads to the rejection, before `bpm` is looked at. -/
theorem loadSongRejects : Obligations.LoadSongRejects := by
  intro s p c bits h
  have hreject : exec (.loadSong p c bits) s = .next (rejectSong s) := by
    cases p with
    | none => rfl
    | some p => exact if_pos (h.resolve_left (Option.some_ne_none p))
  rw [hreject]
  rfl

/-- Settles O40: playing or no song is START's first test, an exhausted cursor the second. -/
theorem startDoesNothing : Obligations.StartDoesNothing := by
  intro s now hnow h
  rw [exec, execStart, if_neg (Nat.not_lt.mpr hnow)]
  split
  · rfl
  · next hready =>
    have hexhausted : s.eventCount ≤ s.eventIndex := by
      simp only [Bool.or_eq_true, Bool.not_eq_true', not_or] at hready
      obtain ⟨hstopped, hsong⟩ := hready
      exact BitVec.le_def.mpr ((h.resolve_left hstopped).resolve_left hsong)
    rw [if_pos hexhausted]
    rfl

theorem setPlaying_eq_self {s : State} {b : Bool} (h : s.playing = b) : setPlaying b s = s := by
  subst h
  rfl

/-- With nothing playing, `playing` is 0 already. -/
theorem execStop_eq (s : State) : execStop s = .next (setPlaying false s) := by
  unfold execStop
  split
  · rfl
  · next hp => rw [setPlaying_eq_self (Bool.not_eq_true _ ▸ hp)]

/-- Settles O41: both branches of STOP leave `playing` at 0. -/
theorem stopClearsPlaying : Obligations.StopClearsPlaying := execStop_eq

/-! ### UPDATE without a dispatch (R168 (1) to (3)) -/

section
variable {event : State → Host.Outcome State Fault Refusal} {s : State}

theorem poll_stopped (hplaying : s.playing = false) :
    poll event s = .next (returnValue (.stillPlaying false) s) := by
  simp [poll, hplaying]

theorem poll_early (hplaying : s.playing = true) (hearly : s.now < s.nextEventDueAt) :
    poll event s = .next (returnValue (.stillPlaying true) s) := by
  simp [poll, hplaying, hearly]

theorem poll_exhausted (hplaying : s.playing = true) (hdue : s.nextEventDueAt ≤ s.now)
    (hend : s.eventCount ≤ s.eventIndex) :
    poll event s = .next (returnValue (.stillPlaying false) (setPlaying false s)) := by
  simp [poll, hplaying, hend, Nat.not_lt.mpr hdue]

end

theorem execUpdate_stopped {s : State} {now : Nat} (hnow : s.now ≤ now) (hplaying : s.playing = false) :
    exec (.update now) s = .next { s with now := now, returns := s.returns ++ [.stillPlaying false] } :=
  (execUpdate_in_order hnow).trans (poll_stopped (s := sampleTime now s) hplaying)

theorem execUpdate_early {s : State} {now : Nat} (hnow : s.now ≤ now) (hplaying : s.playing = true)
    (hearly : now < s.nextEventDueAt) :
    exec (.update now) s = .next { s with now := now, returns := s.returns ++ [.stillPlaying true] } :=
  (execUpdate_in_order hnow).trans (poll_early (s := sampleTime now s) hplaying hearly)

theorem execUpdate_exhausted {s : State} {now : Nat} (hnow : s.now ≤ now) (hplaying : s.playing = true)
    (hdue : s.nextEventDueAt ≤ now) (hend : s.eventCount ≤ s.eventIndex) :
    exec (.update now) s =
      .next { s with now := now, playing := false, returns := s.returns ++ [.stillPlaying false] } :=
  (execUpdate_in_order hnow).trans (poll_exhausted (s := sampleTime now s) hplaying hdue hend)

/-- Settles O42, one test of R168 after the other. -/
theorem updateWithoutDispatch : Obligations.UpdateWithoutDispatch := fun _ _ hnow =>
  ⟨execUpdate_stopped hnow, execUpdate_early hnow,
    fun hplaying hdue hend => execUpdate_exhausted hnow hplaying hdue (BitVec.le_def.mpr hend)⟩

/-! ### The delay of an event (R163) -/

theorem delayOf_eq_floor {cfg : Config} (href : cfg.numerics = .reference) {millisPerTick : ℚ}
    (hm : 0 ≤ millisPerTick) (d : Word) :
    (delayOf cfg millisPerTick d : ℤ) = ⌊(d.toNat : ℚ) * millisPerTick + 1 / 2⌋ := by
  simp only [delayOf, href]
  exact roundRat_floor (by positivity)

/-- At 120 bpm a tick lasts 125/24 ms, and rounding is a division of integers. -/
theorem delayOf_120_bpm {cfg : Config} (href : cfg.numerics = .reference) (d : Word) :
    delayOf cfg (125 / 24) d = (125 * d.toNat + 12) / 24 := by
  have hquotient : (d.toNat : ℚ) * (125 / 24) + 1 / 2 = ((125 * d.toNat + 12 : ℕ) : ℚ) / ((24 : ℕ) : ℚ) := by
    push_cast
    ring
  have hfloor := delayOf_eq_floor href (by norm_num : (0 : ℚ) ≤ 125 / 24) d
  rw [hquotient, Rat.floor_natCast_div_natCast] at hfloor
  exact_mod_cast hfloor

/-- Settles O38: the eight values are quotients of integers. -/
theorem delayIsTheRoundedProduct : Obligations.DelayIsTheRoundedProduct := by
  intro cfg href
  refine ⟨fun millisPerTick d hm => delayOf_eq_floor href hm d, ?_⟩
  simp only [delayOf_120_bpm href]
  decide

/-! ### An UPDATE that dispatches (R168 (4) to (6), R170, R172) -/

/-- A `deltaTicks` is read from two bytes, high byte first (R41, R51). -/
theorem readByte_of_readDelta {s : State} {k : Nat} {d : Word} (h : readDelta s k = some d) :
    ∃ b0 b1, readByte s.stream (s.dataPointer + 6 * k) = some b0 ∧
      readByte s.stream (s.dataPointer + 6 * k + 1) = some b1 ∧ d = bigEndian b0 b1 := by
  unfold readDelta recordBase at h
  split at h
  · next b0 b1 h0 h1 => exact ⟨b0, b1, h0, h1, (Option.some.inj h).symm⟩
  · cases h

/-- A poll that changes a voice or the cursor dispatched: it was due, and moved on by one record. -/
theorem Polled.of_changed {event : Command → Prop} {s t : State} (hp : Polled event s t)
    (hchanged : t.voices ≠ s.voices ∨ t.eventIndex ≠ s.eventIndex) :
    s.playing = true ∧ s.nextEventDueAt ≤ s.now ∧ s.eventIndex < s.eventCount ∧
      t.eventIndex = s.eventIndex + 1 ∧ t.playing = true ∧
      ((s.eventCount ≤ s.eventIndex + 1 ∧ t.nextEventDueAt = s.nextEventDueAt) ∨
        (s.eventIndex + 1 < s.eventCount ∧ ∃ d, readDelta s (s.eventIndex + 1).toNat = some d ∧
          t.nextEventDueAt = s.now + delayOf s.cfg s.millisPerTick d)) := by
  cases hp with
  | idle | early | finished => simp at hchanged
  | last c _ playing due at_record no_next =>
    exact ⟨playing, due, at_record, by simp, by simpa using playing, .inl ⟨no_next, by simp⟩⟩
  | next c _ d playing due at_record has_next delta =>
    exact ⟨playing, due, at_record, by simp, by simpa using playing, .inr ⟨has_next, d, delta, by simp⟩⟩

/-- Settles O47: the poll at the sampled time, its cursor and the next record's bytes as numbers. -/
theorem eventsAreNeverEarly : Obligations.EventsAreNeverEarly := by
  intro s t now h hchanged
  cases exec_next h with
  | update _ _ polled =>
    obtain ⟨hplaying, hdue, hrecord, hcursor, hstays, hnext⟩ := polled.of_changed hchanged
    simp only [sampleTime_playing, sampleTime_nextEventDueAt, sampleTime_now, sampleTime_eventIndex,
      sampleTime_eventCount, sampleTime_cfg, sampleTime_millisPerTick] at hplaying hdue hrecord hcursor hnext
    have hindex : (s.eventIndex + 1).toNat = s.eventIndex.toNat + 1 := by bv_omega
    rw [BitVec.le_def, BitVec.lt_def, hindex] at hnext
    refine ⟨hplaying, hdue, hrecord, hcursor, hstays, fun hlast => ?_, fun hmore => ?_⟩
    · rcases hnext with ⟨-, hkept⟩ | ⟨hmore, -⟩
      · exact hkept
      · omega
    · rcases hnext with ⟨hlast, -⟩ | ⟨-, d, hdelta, hdue'⟩
      · omega
      · obtain ⟨b0, b1, h0, h1, rfl⟩ := readByte_of_readDelta hdelta
        rw [bigEndian_eq_ofNat] at hdue'
        refine ⟨b0, b1, h0, h1, hdue', ?_⟩
        rintro rfl rfl
        exact hdue'.trans (congrArg (now + ·) (delayOf_zero s.cfg s.millisPerTick))

/-! ### A finished song stays finished (R171) -/

/-- Polled any number of times with nothing playing, UPDATE returns false each time and records the last time. -/
theorem pollAt_stopped (later : List Nat) {s : State} (hplaying : s.playing = false)
    (horder : (s.now :: later).Pairwise (· ≤ ·)) :
    pollAt later s = .next { s with
      now := (s.now :: later).getLast (List.cons_ne_nil s.now later)
      returns := s.returns ++ List.replicate later.length (.stillPlaying false) } := by
  induction later generalizing s with
  | nil => simp [pollAt]
  | cons now later ih =>
    obtain ⟨hnow, hlater⟩ := List.pairwise_cons.mp horder
    rw [pollAt, execUpdate_stopped (hnow now List.mem_cons_self) hplaying]
    have hrest := ih (s := { s with now := now, returns := s.returns ++ [.stillPlaying false] }) hplaying hlater
    simpa [List.replicate_succ] using hrest

/-- Settles O48: the exhausted cursor's due time has passed (the host's invariant), so the song ends now, and from then on
nothing plays. -/
theorem songEndsOnce : Obligations.SongEndsOnce := by
  intro s now hinv hplaying hend hnow
  obtain ⟨-, -, -, ⟨hsong, -, -, hpassed⟩, -, -⟩ := hinv
  have hexhausted : s.eventCount ≤ s.eventIndex := BitVec.le_of_eq hend.symm
  have hupdate := execUpdate_exhausted hnow hplaying ((hpassed hplaying hend).trans hnow) hexhausted
  exact ⟨_, hupdate, hostMode_finished (hsong hplaying) rfl hexhausted, rfl, fun later horder =>
    pollAt_stopped later rfl horder⟩

end Sys2Proof.Machine
end

section
/-! SUPPORT. A launch without the guard (60_exceptions.md R205; 70_reset_and_hazards.md R232): the aborted block steps to
itself, however often. -/

namespace Sys2Proof.Machine

/-- An aborted set-up is a fixed point of the step: no operation runs (R205, R232). -/
theorem step_aborted {s : State} (hcfg : configInRange s.cfg = true) (hlaunch : s.launch = .aborted) :
    step s = .next s := by
  simp [step, hcfg, hlaunch]

theorem step_guardFailed {s : State} (hcfg : configInRange s.cfg = true) (hlaunch : s.launch = .guardFailed) :
    step s = .next { report .mutexAcquisitionFailure s with launch := .aborted } := by
  simp [step, hcfg, hlaunch]

/-- A state that steps to itself stays for every number of steps. -/
theorem runFor_of_step_self {s : State} (h : step s = .next s) (n : Nat) : runFor n s = .next s := by
  induction n with
  | zero => exact runFor_zero s
  | succ n ih => exact (runFor_succ h n).trans ih

/-- Settles O9: the report leaves the set-up aborted in the same configuration, which is a fixed point. -/
theorem stuckWithoutTheGuard : Obligations.StuckWithoutTheGuard := by
  intro s hcfg hlaunch t
  have hstuck : step t = .next t := step_aborted hcfg rfl
  exact ⟨step_guardFailed hcfg hlaunch, runFor_of_step_self hstuck⟩

end Sys2Proof.Machine
end
